-- ==== Sys2Proof/Word.lean ====
section
/-! DEFINITION. The word types of the core: 8-bit data bytes and registers, 16-bit addresses (00_scope.md R3). -/

namespace Sys2Proof

/-- An 8-bit data byte or register. -/
abbrev Byte := BitVec 8

/-- A 16-bit address, program counter or operand word. -/
abbrev Word := BitVec 16

end Sys2Proof
end

