-- ==== Sys2Proof/Config.lean ====
section
/-! DEFINITION. The named parameters of the core (00_scope.md R3, table of section 5), each at the value the
spec gives it. The machine is deterministic, so there is no free value here. -/

namespace Sys2Proof

/-- The eight flags of the status register `P` (10_state.md R14). -/
inductive StatusFlag where
  | C | Z | I | D | B | U | V | N
deriving DecidableEq, Repr

namespace Config

/-- FLAG_BIT: the bit position of each flag in `P` (R16; UNVERIFIED, log 3). -/
def flagBit : StatusFlag → Nat
  | .C => 0
  | .Z => 1
  | .I => 2
  | .D => 3
  | .B => 4
  | .U => 5
  | .V => 6
  | .N => 7

/-- VEC_NMI: where the low byte of the NMI vector lies (R47; UNVERIFIED, log 4). -/
def vecNmi : Word := 0xFFFA

/-- VEC_RESET: where the low byte of the reset vector lies (R47; UNVERIFIED, log 4). -/
def vecReset : Word := 0xFFFC

/-- VEC_IRQ: where the low byte of the vector shared by BRK and IRQ lies (R47; UNVERIFIED, log 4). -/
def vecIrq : Word := 0xFFFE

/-- PHP_CLEARS_B: PHP clears live Break after the push (R169; UNVERIFIED, log 8). -/
def phpClearsB : Bool := true

/-- What a location reads as when neither the host nor a write has set it (20_memory.md R41, R52). -/
def unwrittenByte : Byte := 0x00

/-- UNDOC_TABLE, first part: the six three-byte no-ops of mode Absolute,X (30_encoding.md R67; UNVERIFIED, log 2). -/
def undocAbx : List Byte := [0x1C, 0x3C, 0x5C, 0x7C, 0xDC, 0xFC]

/-- UNDOC_TABLE, second part: the 99 one-byte no-ops (30_encoding.md R68; UNVERIFIED, log 2). -/
def undocImp : List Byte :=
  [0x02, 0x03, 0x04, 0x07, 0x0B, 0x0C, 0x0F, 0x12, 0x13, 0x14, 0x17] ++
  [0x1A, 0x1B, 0x1F, 0x22, 0x23, 0x27, 0x2B, 0x2F, 0x32, 0x33, 0x34] ++
  [0x37, 0x3A, 0x3B, 0x3F, 0x42, 0x43, 0x44, 0x47, 0x4B, 0x4F, 0x52] ++
  [0x53, 0x54, 0x57, 0x5A, 0x5B, 0x5F, 0x62, 0x63, 0x64, 0x67, 0x6B] ++
  [0x6F, 0x72, 0x73, 0x74, 0x77, 0x7A, 0x7B, 0x7F, 0x80, 0x82, 0x83] ++
  [0x87, 0x89, 0x8B, 0x8F, 0x92, 0x93, 0x97, 0x9B, 0x9C, 0x9E, 0x9F] ++
  [0xA3, 0xA7, 0xAB, 0xAF, 0xB2, 0xB3, 0xB7, 0xBB, 0xBF, 0xC2, 0xC3] ++
  [0xC7, 0xCB, 0xCF, 0xD2, 0xD3, 0xD4, 0xD7, 0xDA, 0xDB, 0xDF, 0xE2] ++
  [0xE3, 0xE7, 0xEB, 0xEF, 0xF2, 0xF3, 0xF4, 0xF7, 0xFA, 0xFB, 0xFF]

end Config
end Sys2Proof
end

