-- ==== Sys2Proof/Syntax.lean ====
section
/-! DEFINITION. The instructions of the core as data: the twelve addressing modes, operands, and one inductive
`Instr` with a constructor for each mnemonic of spec/opcode_table.json (two for UND, whose rows are of two
shapes). The rows of one mnemonic differ only in addressing mode, which is the constructor's operand. -/

namespace Sys2Proof

/-- The twelve addressing modes, by the spec's tags (30_encoding.md R60). -/
inductive Mode where
  | IMP | IMM | ZP0 | ZPX | ZPY | ABS | ABX | ABY | IND | IZX | IZY | REL
deriving DecidableEq, Repr

/-- An operand: an addressing mode with the value assembled from the operand bytes (30_encoding.md R64).
Relative operands are no case: the branches carry their offset byte themselves. -/
inductive Operand where
  | /-- IMP: no operand byte; for a shift, the accumulator. -/ imp
  | /-- IMM: the operand byte itself. -/ imm (d : Byte)
  | /-- ZP0: a page-zero address. -/ zp0 (d : Byte)
  | /-- ZPX: a page-zero address indexed by X. -/ zpx (d : Byte)
  | /-- ZPY: a page-zero address indexed by Y. -/ zpy (d : Byte)
  | /-- ABS: an address. -/ abs (w : Word)
  | /-- ABX: an address indexed by X. -/ abx (w : Word)
  | /-- ABY: an address indexed by Y. -/ aby (w : Word)
  | /-- IND: the address of a pointer. -/ ind (w : Word)
  | /-- IZX: a page-zero pointer location, indexed by X before the pointer is read. -/ izx (d : Byte)
  | /-- IZY: a page-zero pointer location, whose word is indexed by Y. -/ izy (d : Byte)
deriving DecidableEq, Repr

/-- The mode of an operand. -/
def Operand.mode : Operand → Mode
  | .imp => .IMP
  | .imm _ => .IMM
  | .zp0 _ => .ZP0
  | .zpx _ => .ZPX
  | .zpy _ => .ZPY
  | .abs _ => .ABS
  | .abx _ => .ABX
  | .aby _ => .ABY
  | .ind _ => .IND
  | .izx _ => .IZX
  | .izy _ => .IZY

/-- The instructions (00_scope.md section 2; 30_encoding.md R66 to R68). -/
inductive Instr where
  -- 41: add and subtract
  | adc (o : Operand)
  | sbc (o : Operand)
  -- 42: logical
  | and (o : Operand)
  | ora (o : Operand)
  | eor (o : Operand)
  | bit (o : Operand)
  -- 43: shifts and rotates
  | asl (o : Operand)
  | lsr (o : Operand)
  | rol (o : Operand)
  | ror (o : Operand)
  -- 44: compare, increment, decrement
  | cmp (o : Operand)
  | cpx (o : Operand)
  | cpy (o : Operand)
  | inc (o : Operand)
  | dec (o : Operand)
  | inx
  | iny
  | dex
  | dey
  -- 45: load, store, transfer
  | lda (o : Operand)
  | ldx (o : Operand)
  | ldy (o : Operand)
  | sta (o : Operand)
  | stx (o : Operand)
  | sty (o : Operand)
  | tax
  | tay
  | txa
  | tya
  | tsx
  | txs
  -- 46: stack
  | pha
  | pla
  | php
  | plp
  -- 47: branches (the operand byte is the offset), jumps
  | bcc (d : Byte)
  | bcs (d : Byte)
  | beq (d : Byte)
  | bne (d : Byte)
  | bmi (d : Byte)
  | bpl (d : Byte)
  | bvc (d : Byte)
  | bvs (d : Byte)
  | jmp (o : Operand)
  | jsr (w : Word)
  | rts
  -- 48: break, return from interrupt, flags, no-ops
  | brk
  | rti
  | clc
  | sec
  | cli
  | sei
  | cld
  | sed
  | clv
  | nop
  | /-- UND, one byte (R205): the undocumented opcode byte. -/ undImp (op : Byte)
  | /-- UND, three bytes (R206): the undocumented opcode byte and its Absolute,X word. -/ undAbx (op : Byte) (w : Word)
deriving DecidableEq, Repr

/-- The addressing mode of an instruction (30_encoding.md R66). -/
def Instr.mode : Instr → Mode
  | .adc o | .sbc o | .and o | .ora o | .eor o | .bit o => o.mode
  | .asl o | .lsr o | .rol o | .ror o => o.mode
  | .cmp o | .cpx o | .cpy o | .inc o | .dec o => o.mode
  | .lda o | .ldx o | .ldy o | .sta o | .stx o | .sty o => o.mode
  | .jmp o => o.mode
  | .jsr _ => .ABS
  | .bcc _ | .bcs _ | .beq _ | .bne _ | .bmi _ | .bpl _ | .bvc _ | .bvs _ => .REL
  | .inx | .iny | .dex | .dey | .tax | .tay | .txa | .tya | .tsx | .txs => .IMP
  | .pha | .pla | .php | .plp | .rts | .brk | .rti => .IMP
  | .clc | .sec | .cli | .sei | .cld | .sed | .clv | .nop => .IMP
  | .undImp _ => .IMP
  | .undAbx _ _ => .ABX

end Sys2Proof
end

