-- ==== Sys2Proof/WellFormed.lean ====
section
/-! DEFINITION. Which terms of `Instr` are instructions of the core: those whose mode the opcode map has for the
mnemonic (30_encoding.md R66, columns of the map by mnemonic), and the undocumented bytes of R67 and R68. -/

namespace Sys2Proof

/-- The modes of ADC SBC AND ORA EOR CMP LDA. -/
def readModes : List Mode := [.IMM, .ZP0, .ZPX, .ABS, .ABX, .ABY, .IZX, .IZY]

/-- The modes of STA: those of the reads without Immediate. -/
def storeModes : List Mode := [.ZP0, .ZPX, .ABS, .ABX, .ABY, .IZX, .IZY]

/-- The modes of INC and DEC, and the memory forms of the shifts. -/
def modifyModes : List Mode := [.ZP0, .ZPX, .ABS, .ABX]

/-- An instruction the opcode map has (30_encoding.md R66 to R68). -/
def Instr.wf : Instr → Bool
  | .adc o | .sbc o | .and o | .ora o | .eor o | .cmp o | .lda o => readModes.contains o.mode
  | .bit o => [Mode.ZP0, .ABS].contains o.mode
  | .asl o | .lsr o | .rol o | .ror o => (Mode.IMP :: modifyModes).contains o.mode
  | .cpx o | .cpy o => [Mode.IMM, .ZP0, .ABS].contains o.mode
  | .inc o | .dec o => modifyModes.contains o.mode
  | .ldx o => [Mode.IMM, .ZP0, .ZPY, .ABS, .ABY].contains o.mode
  | .ldy o => [Mode.IMM, .ZP0, .ZPX, .ABS, .ABX].contains o.mode
  | .sta o => storeModes.contains o.mode
  | .stx o => [Mode.ZP0, .ZPY, .ABS].contains o.mode
  | .sty o => [Mode.ZP0, .ZPX, .ABS].contains o.mode
  | .jmp o => [Mode.ABS, .IND].contains o.mode
  | .inx | .iny | .dex | .dey | .tax | .tay | .txa | .tya | .tsx | .txs => true
  | .pha | .pla | .php | .plp => true
  | .bcc _ | .bcs _ | .beq _ | .bne _ | .bmi _ | .bpl _ | .bvc _ | .bvs _ => true
  | .jsr _ | .rts | .brk | .rti | .clc | .sec | .cli | .sei | .cld | .sed | .clv | .nop => true
  | .undImp op => Config.undocImp.contains op
  | .undAbx op _ => Config.undocAbx.contains op

end Sys2Proof
end

