-- ==== Sys2Proof/Decode.lean ====
section
/-! DEFINITION. From bytes to instructions (30_encoding.md R60 to R70) and back. The decoder follows the opcode map
by high and low digit of the opcode byte (R66, first table; UNVERIFIED, log 1), the encoder the same map by
mnemonic (R66, second table): two transcriptions that the round trip compares. -/

namespace Sys2Proof

/-- `hi8(w)`, bits 15 to 8 (00_scope.md R4). -/
def hi8 (w : Word) : Byte := w.extractLsb' 8 8

/-- `lo8(w)`, bits 7 to 0 (R4). -/
def lo8 (w : Word) : Byte := w.extractLsb' 0 8

/-- `{h, l}`: the word of a high and a low byte (R4). -/
def joinBytes (h l : Byte) : Word := h ++ l

/-- How many bytes an instruction of a mode has, its opcode byte included (R60). -/
def Mode.length : Mode → Nat
  | .IMP => 1
  | .IMM | .ZP0 | .ZPX | .ZPY | .IZX | .IZY | .REL => 2
  | .ABS | .ABX | .ABY | .IND => 3

/-- The length of an instruction in bytes (R60). -/
def Instr.length (i : Instr) : Nat := i.mode.length

/-- Row 0x of the opcode map. -/
def mapRow0 (lo : Nat) (d : Byte) (w : Word) : Option Instr :=
  match lo with
  | 0x0 => some .brk
  | 0x1 => some (.ora (.izx d))
  | 0x5 => some (.ora (.zp0 d))
  | 0x6 => some (.asl (.zp0 d))
  | 0x8 => some .php
  | 0x9 => some (.ora (.imm d))
  | 0xA => some (.asl .imp)
  | 0xD => some (.ora (.abs w))
  | 0xE => some (.asl (.abs w))
  | _ => none

/-- Row 1x of the opcode map. -/
def mapRow1 (lo : Nat) (d : Byte) (w : Word) : Option Instr :=
  match lo with
  | 0x0 => some (.bpl d)
  | 0x1 => some (.ora (.izy d))
  | 0x5 => some (.ora (.zpx d))
  | 0x6 => some (.asl (.zpx d))
  | 0x8 => some .clc
  | 0x9 => some (.ora (.aby w))
  | 0xD => some (.ora (.abx w))
  | 0xE => some (.asl (.abx w))
  | _ => none

/-- Row 2x of the opcode map. -/
def mapRow2 (lo : Nat) (d : Byte) (w : Word) : Option Instr :=
  match lo with
  | 0x0 => some (.jsr w)
  | 0x1 => some (.and (.izx d))
  | 0x4 => some (.bit (.zp0 d))
  | 0x5 => some (.and (.zp0 d))
  | 0x6 => some (.rol (.zp0 d))
  | 0x8 => some .plp
  | 0x9 => some (.and (.imm d))
  | 0xA => some (.rol .imp)
  | 0xC => some (.bit (.abs w))
  | 0xD => some (.and (.abs w))
  | 0xE => some (.rol (.abs w))
  | _ => none

/-- Row 3x of the opcode map. -/
def mapRow3 (lo : Nat) (d : Byte) (w : Word) : Option Instr :=
  match lo with
  | 0x0 => some (.bmi d)
  | 0x1 => some (.and (.izy d))
  | 0x5 => some (.and (.zpx d))
  | 0x6 => some (.rol (.zpx d))
  | 0x8 => some .sec
  | 0x9 => some (.and (.aby w))
  | 0xD => some (.and (.abx w))
  | 0xE => some (.rol (.abx w))
  | _ => none

/-- Row 4x of the opcode map. -/
def mapRow4 (lo : Nat) (d : Byte) (w : Word) : Option Instr :=
  match lo with
  | 0x0 => some .rti
  | 0x1 => some (.eor (.izx d))
  | 0x5 => some (.eor (.zp0 d))
  | 0x6 => some (.lsr (.zp0 d))
  | 0x8 => some .pha
  | 0x9 => some (.eor (.imm d))
  | 0xA => some (.lsr .imp)
  | 0xC => some (.jmp (.abs w))
  | 0xD => some (.eor (.abs w))
  | 0xE => some (.lsr (.abs w))
  | _ => none

/-- Row 5x of the opcode map. -/
def mapRow5 (lo : Nat) (d : Byte) (w : Word) : Option Instr :=
  match lo with
  | 0x0 => some (.bvc d)
  | 0x1 => some (.eor (.izy d))
  | 0x5 => some (.eor (.zpx d))
  | 0x6 => some (.lsr (.zpx d))
  | 0x8 => some .cli
  | 0x9 => some (.eor (.aby w))
  | 0xD => some (.eor (.abx w))
  | 0xE => some (.lsr (.abx w))
  | _ => none

/-- Row 6x of the opcode map. -/
def mapRow6 (lo : Nat) (d : Byte) (w : Word) : Option Instr :=
  match lo with
  | 0x0 => some .rts
  | 0x1 => some (.adc (.izx d))
  | 0x5 => some (.adc (.zp0 d))
  | 0x6 => some (.ror (.zp0 d))
  | 0x8 => some .pla
  | 0x9 => some (.adc (.imm d))
  | 0xA => some (.ror .imp)
  | 0xC => some (.jmp (.ind w))
  | 0xD => some (.adc (.abs w))
  | 0xE => some (.ror (.abs w))
  | _ => none

/-- Row 7x of the opcode map. -/
def mapRow7 (lo : Nat) (d : Byte) (w : Word) : Option Instr :=
  match lo with
  | 0x0 => some (.bvs d)
  | 0x1 => some (.adc (.izy d))
  | 0x5 => some (.adc (.zpx d))
  | 0x6 => some (.ror (.zpx d))
  | 0x8 => some .sei
  | 0x9 => some (.adc (.aby w))
  | 0xD => some (.adc (.abx w))
  | 0xE => some (.ror (.abx w))
  | _ => none

/-- Row 8x of the opcode map. -/
def mapRow8 (lo : Nat) (d : Byte) (w : Word) : Option Instr :=
  match lo with
  | 0x1 => some (.sta (.izx d))
  | 0x4 => some (.sty (.zp0 d))
  | 0x5 => some (.sta (.zp0 d))
  | 0x6 => some (.stx (.zp0 d))
  | 0x8 => some .dey
  | 0xA => some .txa
  | 0xC => some (.sty (.abs w))
  | 0xD => some (.sta (.abs w))
  | 0xE => some (.stx (.abs w))
  | _ => none

/-- Row 9x of the opcode map. -/
def mapRow9 (lo : Nat) (d : Byte) (w : Word) : Option Instr :=
  match lo with
  | 0x0 => some (.bcc d)
  | 0x1 => some (.sta (.izy d))
  | 0x4 => some (.sty (.zpx d))
  | 0x5 => some (.sta (.zpx d))
  | 0x6 => some (.stx (.zpy d))
  | 0x8 => some .tya
  | 0x9 => some (.sta (.aby w))
  | 0xA => some .txs
  | 0xD => some (.sta (.abx w))
  | _ => none

/-- Row Ax of the opcode map. -/
def mapRowA (lo : Nat) (d : Byte) (w : Word) : Option Instr :=
  match lo with
  | 0x0 => some (.ldy (.imm d))
  | 0x1 => some (.lda (.izx d))
  | 0x2 => some (.ldx (.imm d))
  | 0x4 => some (.ldy (.zp0 d))
  | 0x5 => some (.lda (.zp0 d))
  | 0x6 => some (.ldx (.zp0 d))
  | 0x8 => some .tay
  | 0x9 => some (.lda (.imm d))
  | 0xA => some .tax
  | 0xC => some (.ldy (.abs w))
  | 0xD => some (.lda (.abs w))
  | 0xE => some (.ldx (.abs w))
  | _ => none

/-- Row Bx of the opcode map. -/
def mapRowB (lo : Nat) (d : Byte) (w : Word) : Option Instr :=
  match lo with
  | 0x0 => some (.bcs d)
  | 0x1 => some (.lda (.izy d))
  | 0x4 => some (.ldy (.zpx d))
  | 0x5 => some (.lda (.zpx d))
  | 0x6 => some (.ldx (.zpy d))
  | 0x8 => some .clv
  | 0x9 => some (.lda (.aby w))
  | 0xA => some .tsx
  | 0xC => some (.ldy (.abx w))
  | 0xD => some (.lda (.abx w))
  | 0xE => some (.ldx (.aby w))
  | _ => none

/-- Row Cx of the opcode map. -/
def mapRowC (lo : Nat) (d : Byte) (w : Word) : Option Instr :=
  match lo with
  | 0x0 => some (.cpy (.imm d))
  | 0x1 => some (.cmp (.izx d))
  | 0x4 => some (.cpy (.zp0 d))
  | 0x5 => some (.cmp (.zp0 d))
  | 0x6 => some (.dec (.zp0 d))
  | 0x8 => some .iny
  | 0x9 => some (.cmp (.imm d))
  | 0xA => some .dex
  | 0xC => some (.cpy (.abs w))
  | 0xD => some (.cmp (.abs w))
  | 0xE => some (.dec (.abs w))
  | _ => none

/-- Row Dx of the opcode map. -/
def mapRowD (lo : Nat) (d : Byte) (w : Word) : Option Instr :=
  match lo with
  | 0x0 => some (.bne d)
  | 0x1 => some (.cmp (.izy d))
  | 0x5 => some (.cmp (.zpx d))
  | 0x6 => some (.dec (.zpx d))
  | 0x8 => some .cld
  | 0x9 => some (.cmp (.aby w))
  | 0xD => some (.cmp (.abx w))
  | 0xE => some (.dec (.abx w))
  | _ => none

/-- Row Ex of the opcode map. -/
def mapRowE (lo : Nat) (d : Byte) (w : Word) : Option Instr :=
  match lo with
  | 0x0 => some (.cpx (.imm d))
  | 0x1 => some (.sbc (.izx d))
  | 0x4 => some (.cpx (.zp0 d))
  | 0x5 => some (.sbc (.zp0 d))
  | 0x6 => some (.inc (.zp0 d))
  | 0x8 => some .inx
  | 0x9 => some (.sbc (.imm d))
  | 0xA => some .nop
  | 0xC => some (.cpx (.abs w))
  | 0xD => some (.sbc (.abs w))
  | 0xE => some (.inc (.abs w))
  | _ => none

/-- Row Fx of the opcode map. -/
def mapRowF (lo : Nat) (d : Byte) (w : Word) : Option Instr :=
  match lo with
  | 0x0 => some (.beq d)
  | 0x1 => some (.sbc (.izy d))
  | 0x5 => some (.sbc (.zpx d))
  | 0x6 => some (.inc (.zpx d))
  | 0x8 => some .sed
  | 0x9 => some (.sbc (.aby w))
  | 0xD => some (.sbc (.abx w))
  | 0xE => some (.inc (.abx w))
  | _ => none

/-- The documented instruction of an opcode byte, or none (R66): `d` is the byte after the opcode, `w` the
little-endian word after it. -/
def documented (op d : Byte) (w : Word) : Option Instr :=
  match op.toNat / 16 with
  | 0x0 => mapRow0 (op.toNat % 16) d w
  | 0x1 => mapRow1 (op.toNat % 16) d w
  | 0x2 => mapRow2 (op.toNat % 16) d w
  | 0x3 => mapRow3 (op.toNat % 16) d w
  | 0x4 => mapRow4 (op.toNat % 16) d w
  | 0x5 => mapRow5 (op.toNat % 16) d w
  | 0x6 => mapRow6 (op.toNat % 16) d w
  | 0x7 => mapRow7 (op.toNat % 16) d w
  | 0x8 => mapRow8 (op.toNat % 16) d w
  | 0x9 => mapRow9 (op.toNat % 16) d w
  | 0xA => mapRowA (op.toNat % 16) d w
  | 0xB => mapRowB (op.toNat % 16) d w
  | 0xC => mapRowC (op.toNat % 16) d w
  | 0xD => mapRowD (op.toNat % 16) d w
  | 0xE => mapRowE (op.toNat % 16) d w
  | _ => mapRowF (op.toNat % 16) d w

/-- The instruction of an opcode byte that is not documented (R67, R68). -/
def undocumented (op : Byte) (w : Word) : Instr :=
  if Config.undocAbx.contains op then .undAbx op w else .undImp op

/-- The instruction that an opcode byte and the two bytes after it make; the bytes beyond its length play no
part. Total: every opcode byte has a table entry (R65, R69). -/
def decodeBytes (b0 b1 b2 : Byte) : Instr :=
  match documented b0 b1 (joinBytes b2 b1) with
  | some i => i
  | none => undocumented b0 (joinBytes b2 b1)

/-- The length of an instruction, from its opcode byte alone (R70). -/
def opcodeLength (b0 : Byte) : Nat := (decodeBytes b0 0 0).length

/-- Why a list of bytes is refused. No opcode byte is refused (R69), only a list that ends too early. -/
inductive DecodeError where
  | /-- The list is empty: there is no opcode byte. Safe. -/ noOpcode
  | /-- The list ends before the last operand byte of this opcode. Safe. -/ truncated (opcode : Byte)
deriving DecidableEq, Repr

/-- Decode the first instruction of a list of bytes: the instruction and the bytes after it. -/
def decode : List Byte → Except DecodeError (Instr × List Byte)
  | [] => .error .noOpcode
  | b0 :: rest =>
    if rest.length + 1 < opcodeLength b0 then .error (.truncated b0)
    else .ok (decodeBytes b0 (rest.getD 0 0) (rest.getD 1 0), rest.drop (opcodeLength b0 - 1))

/-- The first three bytes of a table word of `nbits` bits, bit 0 the least significant bit of the first byte;
bits from `nbits` up are 0. -/
def tableBytes (nbits w : Nat) : List Byte :=
  let v := w % 2 ^ nbits
  [BitVec.ofNat 8 v, BitVec.ofNat 8 (v / 2 ^ 8), BitVec.ofNat 8 (v / 2 ^ 16)]

/-- The instruction the decoder reads from a table word (the longest instruction is three bytes, R60). -/
def decodeTableWord (nbits w : Nat) : Option Instr :=
  match decode (tableBytes nbits w) with
  | .ok (i, _) => some i
  | .error _ => none

/-! ## The encoder -/

/-- The opcode byte of an instruction, from the opcode map by mnemonic (R66) and the lists of R67 and R68; none for
a term that is no instruction. -/
def opcodeOf : Instr → Option Byte
  | .adc o => [(Mode.IMM, (0x69 : Byte)), (.ZP0, 0x65), (.ZPX, 0x75), (.ABS, 0x6D), (.ABX, 0x7D), (.ABY, 0x79), (.IZX, 0x61), (.IZY, 0x71)].lookup o.mode
  | .sbc o => [(Mode.IMM, (0xE9 : Byte)), (.ZP0, 0xE5), (.ZPX, 0xF5), (.ABS, 0xED), (.ABX, 0xFD), (.ABY, 0xF9), (.IZX, 0xE1), (.IZY, 0xF1)].lookup o.mode
  | .and o => [(Mode.IMM, (0x29 : Byte)), (.ZP0, 0x25), (.ZPX, 0x35), (.ABS, 0x2D), (.ABX, 0x3D), (.ABY, 0x39), (.IZX, 0x21), (.IZY, 0x31)].lookup o.mode
  | .ora o => [(Mode.IMM, (0x09 : Byte)), (.ZP0, 0x05), (.ZPX, 0x15), (.ABS, 0x0D), (.ABX, 0x1D), (.ABY, 0x19), (.IZX, 0x01), (.IZY, 0x11)].lookup o.mode
  | .eor o => [(Mode.IMM, (0x49 : Byte)), (.ZP0, 0x45), (.ZPX, 0x55), (.ABS, 0x4D), (.ABX, 0x5D), (.ABY, 0x59), (.IZX, 0x41), (.IZY, 0x51)].lookup o.mode
  | .bit o => [(Mode.ZP0, (0x24 : Byte)), (.ABS, 0x2C)].lookup o.mode
  | .asl o => [(Mode.IMP, (0x0A : Byte)), (.ZP0, 0x06), (.ZPX, 0x16), (.ABS, 0x0E), (.ABX, 0x1E)].lookup o.mode
  | .lsr o => [(Mode.IMP, (0x4A : Byte)), (.ZP0, 0x46), (.ZPX, 0x56), (.ABS, 0x4E), (.ABX, 0x5E)].lookup o.mode
  | .rol o => [(Mode.IMP, (0x2A : Byte)), (.ZP0, 0x26), (.ZPX, 0x36), (.ABS, 0x2E), (.ABX, 0x3E)].lookup o.mode
  | .ror o => [(Mode.IMP, (0x6A : Byte)), (.ZP0, 0x66), (.ZPX, 0x76), (.ABS, 0x6E), (.ABX, 0x7E)].lookup o.mode
  | .cmp o => [(Mode.IMM, (0xC9 : Byte)), (.ZP0, 0xC5), (.ZPX, 0xD5), (.ABS, 0xCD), (.ABX, 0xDD), (.ABY, 0xD9), (.IZX, 0xC1), (.IZY, 0xD1)].lookup o.mode
  | .cpx o => [(Mode.IMM, (0xE0 : Byte)), (.ZP0, 0xE4), (.ABS, 0xEC)].lookup o.mode
  | .cpy o => [(Mode.IMM, (0xC0 : Byte)), (.ZP0, 0xC4), (.ABS, 0xCC)].lookup o.mode
  | .inc o => [(Mode.ZP0, (0xE6 : Byte)), (.ZPX, 0xF6), (.ABS, 0xEE), (.ABX, 0xFE)].lookup o.mode
  | .dec o => [(Mode.ZP0, (0xC6 : Byte)), (.ZPX, 0xD6), (.ABS, 0xCE), (.ABX, 0xDE)].lookup o.mode
  | .inx => some 0xE8
  | .iny => some 0xC8
  | .dex => some 0xCA
  | .dey => some 0x88
  | .lda o => [(Mode.IMM, (0xA9 : Byte)), (.ZP0, 0xA5), (.ZPX, 0xB5), (.ABS, 0xAD), (.ABX, 0xBD), (.ABY, 0xB9), (.IZX, 0xA1), (.IZY, 0xB1)].lookup o.mode
  | .ldx o => [(Mode.IMM, (0xA2 : Byte)), (.ZP0, 0xA6), (.ZPY, 0xB6), (.ABS, 0xAE), (.ABY, 0xBE)].lookup o.mode
  | .ldy o => [(Mode.IMM, (0xA0 : Byte)), (.ZP0, 0xA4), (.ZPX, 0xB4), (.ABS, 0xAC), (.ABX, 0xBC)].lookup o.mode
  | .sta o => [(Mode.ZP0, (0x85 : Byte)), (.ZPX, 0x95), (.ABS, 0x8D), (.ABX, 0x9D), (.ABY, 0x99), (.IZX, 0x81), (.IZY, 0x91)].lookup o.mode
  | .stx o => [(Mode.ZP0, (0x86 : Byte)), (.ZPY, 0x96), (.ABS, 0x8E)].lookup o.mode
  | .sty o => [(Mode.ZP0, (0x84 : Byte)), (.ZPX, 0x94), (.ABS, 0x8C)].lookup o.mode
  | .tax => some 0xAA
  | .tay => some 0xA8
  | .txa => some 0x8A
  | .tya => some 0x98
  | .tsx => some 0xBA
  | .txs => some 0x9A
  | .pha => some 0x48
  | .pla => some 0x68
  | .php => some 0x08
  | .plp => some 0x28
  | .bcc _ => some 0x90
  | .bcs _ => some 0xB0
  | .beq _ => some 0xF0
  | .bne _ => some 0xD0
  | .bmi _ => some 0x30
  | .bpl _ => some 0x10
  | .bvc _ => some 0x50
  | .bvs _ => some 0x70
  | .jmp o => [(Mode.ABS, (0x4C : Byte)), (.IND, 0x6C)].lookup o.mode
  | .jsr _ => some 0x20
  | .rts => some 0x60
  | .brk => some 0x00
  | .rti => some 0x40
  | .clc => some 0x18
  | .sec => some 0x38
  | .cli => some 0x58
  | .sei => some 0x78
  | .cld => some 0xD8
  | .sed => some 0xF8
  | .clv => some 0xB8
  | .nop => some 0xEA
  | .undImp op => if Config.undocImp.contains op then some op else none
  | .undAbx op _ => if Config.undocAbx.contains op then some op else none

/-- The operand bytes of an operand, a word low byte first (R61 to R63). -/
def operandBytes : Operand → List Byte
  | .imp => []
  | .imm d | .zp0 d | .zpx d | .zpy d | .izx d | .izy d => [d]
  | .abs w | .abx w | .aby w | .ind w => [lo8 w, hi8 w]

/-- The bytes after the opcode byte. -/
def Instr.operandBytes : Instr → List Byte
  | .adc o | .sbc o | .and o | .ora o | .eor o | .bit o => Sys2Proof.operandBytes o
  | .asl o | .lsr o | .rol o | .ror o => Sys2Proof.operandBytes o
  | .cmp o | .cpx o | .cpy o | .inc o | .dec o => Sys2Proof.operandBytes o
  | .lda o | .ldx o | .ldy o | .sta o | .stx o | .sty o => Sys2Proof.operandBytes o
  | .jmp o => Sys2Proof.operandBytes o
  | .jsr w => [lo8 w, hi8 w]
  | .bcc d | .bcs d | .beq d | .bne d | .bmi d | .bpl d | .bvc d | .bvs d => [d]
  | .inx | .iny | .dex | .dey | .tax | .tay | .txa | .tya | .tsx | .txs => []
  | .pha | .pla | .php | .plp | .rts | .brk | .rti => []
  | .clc | .sec | .cli | .sei | .cld | .sed | .clv | .nop => []
  | .undImp _ => []
  | .undAbx _ w => [lo8 w, hi8 w]

/-- The bytes of a well-formed instruction, opcode byte first (R61 to R63); no bytes for an ill-formed term. -/
def encode (i : Instr) : List Byte :=
  match opcodeOf i with
  | some b => b :: i.operandBytes
  | none => []

end Sys2Proof
end

