-- ==== Sys2Proof/Machine/State.lean ====
section
/-! DEFINITION. The state of the core (10_state.md), the store behind its bus port (20_memory.md), the inputs that
the outside will give it (60_exceptions.md R231), and the state a Reset leaves (R25). Plain data throughout. -/

namespace Sys2Proof.Machine

open Sys2Proof

/-- The 8-bit registers that instructions name (R6, R10). -/
inductive Reg where
  | A | X | Y | SP
deriving DecidableEq, Repr

/-- The four commands, the only inputs of the core itself (60_exceptions.md R231). -/
inductive Command where
  | /-- 70_reset_and_hazards.md R260 -/ reset
  | /-- 49_dispatch_clock.md R215 -/ clock
  | /-- 60_exceptions.md R232 -/ irq
  | /-- 60_exceptions.md R233 -/ nmi
deriving DecidableEq, Repr

/-- One input from outside: a command of the driver, or a byte the host writes into the store between two
commands (20_memory.md R48; 70_reset_and_hazards.md R269). -/
inductive Input where
  | command (c : Command)
  | hostWrite (addr : Word) (value : Byte)
deriving DecidableEq, Repr

/-- The store: (address, byte) pairs, addresses strictly rising, no byte equal to what an unlisted address reads
as (`Memory.wf`, Machine/Ops.lean). -/
abbrev Memory := List Host.Cell

/-- Everything the spec gives the machine, and the inputs still to come. -/
structure State where
  /-- The accumulator `A` (R10). -/
  a : Byte
  /-- The index register `X` (R10). -/
  x : Byte
  /-- The index register `Y` (R10). -/
  y : Byte
  /-- The stack pointer `SP`, the low byte of the next free stack location (R10, R12). -/
  sp : Byte
  /-- The program counter (R10, R13). -/
  pc : Word
  /-- The status register `P`; its flags are read and written through Machine/Flags.lean (R14, R16). -/
  p : Byte
  /-- The remaining cycle countdown (R22; a natural number, log 19). -/
  countdown : Nat
  /-- Scratch: the opcode byte of the last dispatch (R21; log 18). -/
  opcode : Byte
  /-- Scratch: the last resolved absolute address (R21; log 18). -/
  addrAbs : Word
  /-- Scratch: the last resolved relative offset, sign-extended (R21; log 18). -/
  addrRel : Word
  /-- Scratch: the last operand byte the fetch helper delivered (R21, R93; log 18). -/
  fetched : Byte
  /-- The 64KB store (20_memory.md R40). -/
  mem : Memory
  /-- The MODEL's own field, no state of the core: what driver and host will do next, oldest first. When it is
  empty the driver issues Clock (DESIGN CHOICE, log 15). -/
  inputs : List Input
deriving DecidableEq, Repr

/-- The hardware faults in no way (60_exceptions.md R230), so there is no reason to fault: no meaning raises one. -/
inductive Fault where
deriving DecidableEq, Repr

/-- Why an instruction is refused. -/
inductive Refusal where
  | /-- Raised by `exec` alone, for an instruction whose meaning is not written yet. Safe. No arm of this model
    raises it. -/ notModelled (mnemonic : String)
deriving DecidableEq, Repr

/-- The outcome of a step of this machine. -/
abbrev Outcome := Host.Outcome State Fault Refusal

/-- The machine right after the Reset command, on a store that lists nothing (R25, R260): `pc` is the word at the
reset vector, which reads 0 there (R41; log 16). -/
def State.reset : State where
  a := 0x00
  x := 0x00
  y := 0x00
  sp := 0xFD
  pc := 0x0000
  p := 0x20
  countdown := 8
  opcode := 0x00
  addrAbs := 0x0000
  addrRel := 0x0000
  fetched := 0x00
  mem := []
  inputs := []

end Sys2Proof.Machine
end

