-- ==== Sys2Proof/Machine/Flags.lean ====
section
/-! DEFINITION. The status register by flag (10_state.md R14 to R20) and every flag computation of the spec. -/

namespace Sys2Proof.Machine

open Sys2Proof

/-! ## Single flags -/

/-- The mask of a flag in the status byte (R16). -/
def flagMask (f : StatusFlag) : Byte := 1#8 <<< Config.flagBit f

/-- `P.f` of a status byte. -/
def getFlag (p : Byte) (f : StatusFlag) : Bool := p.getLsbD (Config.flagBit f)

/-- A status byte with one flag written and the other seven left (R6). -/
def putFlag (p : Byte) (f : StatusFlag) (b : Bool) : Byte :=
  if b then p ||| flagMask f else p &&& ~~~(flagMask f)

/-- `P.f` of the live status. -/
def State.flag (s : State) (f : StatusFlag) : Bool := getFlag s.p f

/-- `P.f <- b`. -/
def State.setFlag (s : State) (f : StatusFlag) (b : Bool) : State := { s with p := putFlag s.p f b }

/-- `SetZN(v)` (R18). -/
def State.setZN (s : State) (v : Byte) : State :=
  (s.setFlag .Z (v == 0)).setFlag .N (v.getLsbD 7)

/-! ## Status bytes on the stack (R20) -/

/-- The copy that PHP and BRK push: Break and Unused forced to 1 (R169, R195; BRK's Unused UNVERIFIED, log 6). -/
def pushedCopy (p : Byte) : Byte := p ||| 0x30

/-- The live status that IRQ and NMI make and then push: Break 0, Unused 1 (R234; UNVERIFIED, log 7). -/
def interruptStatus (p : Byte) : Byte := putFlag (putFlag p .B false) .U true

/-- The live status PLP makes of a pulled byte: Unused forced to 1 (R170). -/
def plpStatus (v : Byte) : Byte := v ||| 0x20

/-- The live status RTI makes of a pulled byte: Break and Unused 0 (R196). -/
def rtiStatus (v : Byte) : Byte := putFlag (putFlag v .B false) .U false

/-! ## Arithmetic -/

/-- The 16-bit intermediate of AddCore (R100): accumulator, operand and carry, each widened with zeros. -/
def addWide (a v : Byte) (c : Bool) : Word :=
  a.setWidth 16 + v.setWidth 16 + (if c then 1 else 0)

/-- The Overflow formula of AddCore (R100) on accumulator, the byte added and the result. -/
def addOverflow (a v r : Byte) : Bool := (~~~(a ^^^ v) &&& (a ^^^ r)).getLsbD 7

/-- The four flags of AddCore (R100), from the accumulator before the addition. -/
def State.setAddFlags (s : State) (a v : Byte) (t : Word) : State :=
  (((s.setFlag .C (decide (255 < t.toNat))).setFlag .Z (lo8 t == 0)).setFlag .V (addOverflow a v (lo8 t))).setFlag
    .N (t.getLsbD 7)

/-- The 16-bit difference of Compare (R130). -/
def compareWide (r m : Byte) : Word := r.setWidth 16 - m.setWidth 16

/-- The three flags of Compare (R130). -/
def State.setCompareFlags (s : State) (r m : Byte) : State :=
  ((s.setFlag .C (decide (m.toNat ≤ r.toNat))).setFlag .Z (lo8 (compareWide r m) == 0)).setFlag
    .N ((compareWide r m).getLsbD 7)

/-- The three flags of BIT: Z from the and, N and V from the operand (R113; UNVERIFIED, log 13). -/
def State.setBitFlags (s : State) (a m : Byte) : State :=
  ((s.setFlag .Z (a &&& m == 0)).setFlag .N (m.getLsbD 7)).setFlag .V (m.getLsbD 6)

end Sys2Proof.Machine
end

