-- ==== Sys2Proof/Machine/Ops.lean ====
section
/-! DEFINITION. The shared operations: the store and the bus port (20_memory.md), registers (00_scope.md R6), the
stack (46_stack.md), and entering and leaving a handler (60_exceptions.md, 48_break_flags_nop.md). -/

namespace Sys2Proof.Machine

open Sys2Proof

/-! ## The store as data -/

/-- The canonical form: addresses strictly rising, all inside the address space (R40), and no byte listed that an
unlisted address would read as. -/
abbrev Memory.wf (m : Memory) : Prop :=
  m.Pairwise (fun c d => c.1 < d.1) ∧ ∀ c ∈ m, c.1 < 65536 ∧ c.2 ≠ Config.unwrittenByte

/-- The byte at an address; an unlisted address reads as the default (R41, R52). -/
def Memory.get : Memory → Nat → Byte
  | [], _ => Config.unwrittenByte
  | c :: m, k => if c.1 = k then c.2 else Memory.get m k

/-- A list of cells with one more, put before the first cell of a higher address. -/
def Memory.insertCell : Memory → Nat → Byte → Memory
  | [], k, v => [(k, v)]
  | c :: m, k, v => if k < c.1 then (k, v) :: c :: m else c :: Memory.insertCell m k v

/-- The store with one byte replaced, kept in canonical form: the default byte is not listed. -/
def Memory.put (m : Memory) (k : Nat) (v : Byte) : Memory :=
  let rest := m.filter (fun c => c.1 != k)
  if v = Config.unwrittenByte then rest else Memory.insertCell rest k v

/-! ## The bus port -/

/-- `MemRead(addr, 1)` (R41): never fails and has no side effect. -/
def State.read (s : State) (addr : Word) : Byte := s.mem.get addr.toNat

/-- `MemWrite(addr, 1, v)` (R42): never fails. -/
def State.write (s : State) (addr : Word) (v : Byte) : State := { s with mem := s.mem.put addr.toNat v }

/-- Write bytes at an address and the addresses after it, modulo 65536. -/
def State.writeBytes (s : State) (addr : Word) : List Byte → State
  | [] => s
  | v :: vs => (s.write addr v).writeBytes (addr + 1) vs

/-- `Read16(a)` (R44): little-endian, the second address modulo 65536. -/
def State.read16 (s : State) (addr : Word) : Word := joinBytes (s.read (addr + 1)) (s.read addr)

/-! ## Registers -/

/-- `x[r]` (R6). -/
def State.reg (s : State) : Reg → Byte
  | .A => s.a
  | .X => s.x
  | .Y => s.y
  | .SP => s.sp

/-- `x[r] <- v` (R6). -/
def State.setReg (s : State) (r : Reg) (v : Byte) : State :=
  match r with
  | .A => { s with a := v }
  | .X => { s with x := v }
  | .Y => { s with y := v }
  | .SP => { s with sp := v }

/-- `pc <- target` (R6). -/
def State.setPc (s : State) (target : Word) : State := { s with pc := target }

/-- Write the whole live status. -/
def State.setStatus (s : State) (v : Byte) : State := { s with p := v }

/-- Load the cycle countdown (R22, R217). -/
def State.charge (s : State) (n : Nat) : State := { s with countdown := n }

/-- The inputs still to come after some were taken. -/
def State.setInputs (s : State) (is : List Input) : State := { s with inputs := is }

/-! ## The stack -/

/-- The stack location of a stack pointer (R12): always in page one. -/
def stackAddr (sp : Byte) : Word := 0x0100 + sp.setWidth 16

/-- `Push(v)` (R165). -/
def State.push (s : State) (v : Byte) : State := (s.write (stackAddr s.sp) v).setReg .SP (s.sp - 1)

/-- The byte `Pull()` returns (R166). -/
def State.pulled (s : State) : Byte := s.read (stackAddr (s.sp + 1))

/-- The state after `Pull()` (R166). -/
def State.popped (s : State) : State := s.setReg .SP (s.sp + 1)

/-- Push a word, high byte first, so that its low byte lies at the lower address (20_memory.md R43). -/
def State.pushWord (s : State) (w : Word) : State := (s.push (hi8 w)).push (lo8 w)

/-- The word that two pulls return, low byte first. -/
def State.pulledWord (s : State) : Word := joinBytes s.popped.pulled s.pulled

/-! ## Entering and leaving a handler -/

/-- Enter a handler, common to BRK, IRQ and NMI (R195, R234, R240): push the return address and a status byte, set
Interrupt-disable, load `pc` from a vector. -/
def State.enterHandler (s : State) (ret : Word) (status : Byte) (vec : Word) : State :=
  let framed := ((s.pushWord ret).push status).setFlag .I true
  framed.setPc (framed.read16 vec)

/-- `InterruptEntry(vec, cost)` of IRQ and NMI (R234): the live Break and Unused bits change and the live status is
what is pushed (UNVERIFIED, log 7); `countdown` is overwritten. -/
def State.interruptEntry (s : State) (vec : Word) (cost : Nat) : State :=
  ((s.setStatus (interruptStatus s.p)).enterHandler s.pc (interruptStatus s.p) vec).charge cost

/-- Leave a handler (R196, R241): the status byte, then the return address, low byte first, not adjusted. -/
def State.leaveHandler (s : State) : State :=
  let restored := s.popped.setStatus (rtiStatus s.pulled)
  restored.popped.popped.setPc restored.pulledWord

end Sys2Proof.Machine
end

