-- ==== Sys2Proof/Machine/Operands.lean ====
section
/-! DEFINITION. The addressing-mode routines and the fetch helper (40_addressing_modes.md), the write-back of the
shifts, and what a form costs (49_dispatch_clock.md R217; 70_reset_and_hazards.md R270).

A meaning starts from the state at the instruction boundary: `pc` is the address of the opcode byte. The operand
bytes stand in the decoded operand, as the mode routine would have read them (log 20). -/

namespace Sys2Proof.Machine

open Sys2Proof

/-- `zext_16` (R6). -/
def zext16 (v : Byte) : Word := v.setWidth 16

/-- `sext_16` (R6). -/
def sext16 (v : Byte) : Word := v.signExtend 16

/-- What a mode routine produces beside the advance of `pc` (R80); the mark `implied` is the operand `imp` itself. -/
structure Resolved where
  /-- `addr_abs` -/
  addr : Word
  /-- the addressing extra `ax`: a page was crossed -/
  ax : Bool
deriving DecidableEq, Repr

/-- A base address and an index, modulo 65536; `ax` when the high byte changes (R87, R88, R91). -/
def indexed (base : Word) (index : Byte) : Resolved :=
  ⟨base + zext16 index, hi8 (base + zext16 index) != hi8 base⟩

/-- Where the high byte of the target of an indirect jump lies: in the pointer's own page (R89). -/
def indirectHigh (ptr : Word) : Word :=
  if lo8 ptr = 0xFF then joinBytes (hi8 ptr) 0x00 else ptr + 1

/-- The word at a page-zero pointer location, both bytes in page zero (R90, R91; UNVERIFIED, log 11). -/
def State.zeroPageWord (s : State) (zp : Byte) : Word :=
  joinBytes (s.read (zext16 (zp + 1))) (s.read (zext16 zp))

/-- The mode routines (R81 to R91). Implied defines no address: the scratch address stays (R81; log 18). -/
def resolve (o : Operand) (s : State) : Resolved :=
  match o with
  | .imp => ⟨s.addrAbs, false⟩
  | .imm _ => ⟨s.pc + 1, false⟩
  | .zp0 d => ⟨zext16 d, false⟩
  | .zpx d => ⟨zext16 (d + s.reg .X), false⟩
  | .zpy d => ⟨zext16 (d + s.reg .Y), false⟩
  | .abs w => ⟨w, false⟩
  | .abx w => indexed w (s.reg .X)
  | .aby w => indexed w (s.reg .Y)
  | .ind ptr => ⟨joinBytes (s.read (indirectHigh ptr)) (s.read ptr), false⟩
  | .izx d => ⟨s.zeroPageWord (d + s.reg .X), false⟩
  | .izy d => indexed (s.zeroPageWord d) (s.reg .Y)

/-- `pc` after an instruction of `n` bytes that starts at `pc` (R13). -/
def State.pcAfter (s : State) (n : Nat) : Word := s.pc + BitVec.ofNat 16 n

/-- The state the operation routine finds: `pc` past the whole instruction, the resolved address in the scratch
field (R13, R80). -/
def afterMode (o : Operand) (s : State) : State :=
  { s with pc := s.pcAfter o.mode.length, addrAbs := (resolve o s).addr }

/-- `Fetch()` (R93): the accumulator in Implied mode, the operand byte in Immediate mode (the byte at the resolved
address, log 20), else the byte at the resolved address. -/
def fetchOperand (o : Operand) (s : State) : Byte :=
  match o with
  | .imp => s.reg .A
  | .imm d => d
  | .zp0 _ | .zpx _ | .zpy _ | .abs _ | .abx _ | .aby _ | .ind _ | .izx _ | .izy _ => s.read (resolve o s).addr

/-- The state after the mode routine and `Fetch()`. -/
def afterFetch (o : Operand) (s : State) : State :=
  { afterMode o s with fetched := fetchOperand o s }

/-- `WriteBack(r)` to the operand resolved in `s` (R120): the accumulator in Implied mode, else memory; Zero and
Negative from the result. -/
def writeBack (o : Operand) (s : State) (r : Byte) (t : State) : State :=
  (match o with
    | .imp => t.setReg .A r
    | .imm _ | .zp0 _ | .zpx _ | .zpy _ | .abs _ | .abx _ | .aby _ | .ind _ | .izx _ | .izy _ =>
      t.write (resolve o s).addr r).setZN r

/-! ## Cost -/

/-- The cost of an operand form (R217): base and the page-crossing cycle when mode and operation agree. -/
def formCost (base : Nat) (ox : Bool) (o : Operand) (s : State) : Nat :=
  base + (if (resolve o s).ax && ox then 1 else 0)

/-- Base cycles of the reads by mode (R270). The cells the table leaves blank are no instruction. -/
def readCycles : Operand → Nat
  | .imp | .imm _ => 2
  | .zp0 _ => 3
  | .zpx _ | .zpy _ | .abs _ | .abx _ | .aby _ => 4
  | .izy _ | .ind _ => 5
  | .izx _ => 6

/-- Base cycles of the stores by mode (R270). The cells the table leaves blank are no instruction. -/
def storeCycles : Operand → Nat
  | .imp | .imm _ => 2
  | .zp0 _ => 3
  | .zpx _ | .zpy _ | .abs _ => 4
  | .abx _ | .aby _ | .ind _ => 5
  | .izx _ | .izy _ => 6

/-- Base cycles of the read-modify-write instructions by mode (R270). The cells the table leaves blank are no
instruction. -/
def modifyCycles : Operand → Nat
  | .imp | .imm _ => 2
  | .zp0 _ => 5
  | .zpx _ | .zpy _ | .abs _ | .ind _ => 6
  | .abx _ | .aby _ | .izx _ | .izy _ => 7

/-! ## The shape of an Implied instruction -/

/-- The state after a one-byte instruction of mode Implied with the given base cycles has done its work on the state
in which `pc` already stands past it (R81, R216). -/
def implied (base : Nat) (work : State → State) (s : State) : State :=
  (work (s.setPc (s.pcAfter 1))).charge base

end Sys2Proof.Machine
end

