-- ==== Sys2Proof/Machine/Arith.lean ====
section
/-! DEFINITION. Add and subtract with carry (41_add_subtract.md). Decimal is not read (R19). -/

namespace Sys2Proof.Machine

open Sys2Proof

/-- `AddCore(v)` (R100): the flags use the accumulator before it is overwritten. -/
def addCore (v : Byte) (s : State) : State :=
  let t := addWide (s.reg .A) v (s.flag .C)
  (s.setAddFlags (s.reg .A) v t).setReg .A (lo8 t)

/-- ADC (R101). -/
def execAdc (o : Operand) (s : State) : Outcome :=
  .next ((addCore (fetchOperand o s) (afterFetch o s)).charge (formCost (readCycles o) true o s))

/-- SBC (R102): the one's complement of the operand is what is added, and what enters the Overflow formula
(UNVERIFIED, log 9). -/
def execSbc (o : Operand) (s : State) : Outcome :=
  .next ((addCore (fetchOperand o s ^^^ 0xFF) (afterFetch o s)).charge (formCost (readCycles o) true o s))

end Sys2Proof.Machine
end

