-- ==== Sys2Proof/Machine/Compare.lean ====
section
/-! DEFINITION. Compare, increment and decrement (44_compare_incdec.md). -/

namespace Sys2Proof.Machine

open Sys2Proof

/-- `Compare(r)` (R130): only Carry, Zero and Negative are written. -/
def compareReg (r : Reg) (ox : Bool) (o : Operand) (s : State) : State :=
  ((afterFetch o s).setCompareFlags (s.reg r) (fetchOperand o s)).charge (formCost (readCycles o) ox o s)

/-- CMP (R131). -/
def execCmp (o : Operand) (s : State) : Outcome := .next (compareReg .A true o s)

/-- CPX (R132). -/
def execCpx (o : Operand) (s : State) : Outcome := .next (compareReg .X false o s)

/-- CPY (R133). -/
def execCpy (o : Operand) (s : State) : Outcome := .next (compareReg .Y false o s)

/-- Replace a memory byte by a function of it and set Zero and Negative (R134, R135). -/
def modifyMemory (f : Byte → Byte) (o : Operand) (s : State) : State :=
  let r := f (fetchOperand o s)
  (((afterFetch o s).write (resolve o s).addr r).setZN r).charge (formCost (modifyCycles o) false o s)

/-- INC (R134). -/
def execInc (o : Operand) (s : State) : Outcome := .next (modifyMemory (· + 1) o s)

/-- DEC (R135). -/
def execDec (o : Operand) (s : State) : Outcome := .next (modifyMemory (· - 1) o s)

/-- Replace a register by a value and set Zero and Negative from it: the register forms of increment and decrement
(R136 to R139) and the transfers between A, X and Y (45_load_store_transfer.md R151 to R154). -/
def State.setRegZN (s : State) (r : Reg) (v : Byte) : State := (s.setReg r v).setZN v

/-- INX (R136). -/
def execInx (s : State) : Outcome := .next (implied 2 (fun t => t.setRegZN .X (t.reg .X + 1)) s)

/-- INY (R137). -/
def execIny (s : State) : Outcome := .next (implied 2 (fun t => t.setRegZN .Y (t.reg .Y + 1)) s)

/-- DEX (R138). -/
def execDex (s : State) : Outcome := .next (implied 2 (fun t => t.setRegZN .X (t.reg .X - 1)) s)

/-- DEY (R139). -/
def execDey (s : State) : Outcome := .next (implied 2 (fun t => t.setRegZN .Y (t.reg .Y - 1)) s)

end Sys2Proof.Machine
end

