-- ==== Sys2Proof/Machine/Jump.lean ====
section
/-! DEFINITION. Branches, jumps, call and return (47_branch_jump.md). No flag changes. -/

namespace Sys2Proof.Machine

open Sys2Proof

/-- Where a taken branch at `pc` goes: the address after its two bytes plus the offset (R92, R175). -/
def branchTarget (d : Byte) (s : State) : Word := s.pcAfter 2 + sext16 d

/-- The branch extra `bx` of a taken branch (R175): 2 when target and next instruction lie in different pages. -/
def takenExtra (d : Byte) (s : State) : Nat := if hi8 (branchTarget d s) != hi8 (s.pcAfter 2) then 2 else 1

/-- `Branch(cond)` (R175), base 2 cycles. -/
def branch (cond : Bool) (d : Byte) (s : State) : State :=
  { s with
    pc := if cond then branchTarget d s else s.pcAfter 2
    addrRel := sext16 d
    countdown := 2 + (if cond then takenExtra d s else 0) }

/-- BCC (R176). -/
def execBcc (d : Byte) (s : State) : Outcome := .next (branch (!s.flag .C) d s)

/-- BCS (R177). -/
def execBcs (d : Byte) (s : State) : Outcome := .next (branch (s.flag .C) d s)

/-- BEQ (R178). -/
def execBeq (d : Byte) (s : State) : Outcome := .next (branch (s.flag .Z) d s)

/-- BNE (R179). -/
def execBne (d : Byte) (s : State) : Outcome := .next (branch (!s.flag .Z) d s)

/-- BMI (R180). -/
def execBmi (d : Byte) (s : State) : Outcome := .next (branch (s.flag .N) d s)

/-- BPL (R181). -/
def execBpl (d : Byte) (s : State) : Outcome := .next (branch (!s.flag .N) d s)

/-- BVC (R182). -/
def execBvc (d : Byte) (s : State) : Outcome := .next (branch (!s.flag .V) d s)

/-- BVS (R183). -/
def execBvs (d : Byte) (s : State) : Outcome := .next (branch (s.flag .V) d s)

/-- Base cycles of JMP: 5 through a pointer, else 3 (R184). -/
def jumpCycles : Operand → Nat
  | .ind _ => 5
  | .imp | .imm _ | .zp0 _ | .zpx _ | .zpy _ | .abs _ | .abx _ | .aby _ | .izx _ | .izy _ => 3

/-- JMP (R184). -/
def execJmp (o : Operand) (s : State) : Outcome :=
  .next (((afterMode o s).setPc (resolve o s).addr).charge (formCost (jumpCycles o) false o s))

/-- JSR (R185): the address of its own last byte is pushed. -/
def execJsr (w : Word) (s : State) : Outcome :=
  let t := afterMode (.abs w) s
  .next (((t.pushWord (t.pc - 1)).setPc w).charge 6)

/-- RTS (R186). -/
def execRts (s : State) : Outcome :=
  .next (implied 6 (fun t => t.popped.popped.setPc (t.pulledWord + 1)) s)

end Sys2Proof.Machine
end

