-- ==== Sys2Proof/Machine/Logic.lean ====
section
/-! DEFINITION. Logical operations (42_logical.md). -/

namespace Sys2Proof.Machine

open Sys2Proof

/-- Combine the fetched operand into the accumulator and set Zero and Negative (R110 to R112). -/
def combine (f : Byte → Byte → Byte) (o : Operand) (s : State) : State :=
  let r := f (s.reg .A) (fetchOperand o s)
  (((afterFetch o s).setReg .A r).setZN r).charge (formCost (readCycles o) true o s)

/-- AND (R110). -/
def execAnd (o : Operand) (s : State) : Outcome := .next (combine (· &&& ·) o s)

/-- ORA (R111). -/
def execOra (o : Operand) (s : State) : Outcome := .next (combine (· ||| ·) o s)

/-- EOR (R112). -/
def execEor (o : Operand) (s : State) : Outcome := .next (combine (· ^^^ ·) o s)

/-- BIT (R113; UNVERIFIED, log 13). -/
def execBit (o : Operand) (s : State) : Outcome :=
  .next (((afterFetch o s).setBitFlags (s.reg .A) (fetchOperand o s)).charge (formCost (readCycles o) false o s))

end Sys2Proof.Machine
end

