-- ==== Sys2Proof/Machine/Shift.lean ====
section
/-! DEFINITION. Shifts and rotates by one position (43_shift_rotate.md). -/

namespace Sys2Proof.Machine

open Sys2Proof

/-- Read the operand, set Carry to the bit shifted out, write the result back where the operand came from (R120). -/
def shiftOperand (carryOut : Byte → Bool) (result : Byte → Bool → Byte) (o : Operand) (s : State) : State :=
  let m := fetchOperand o s
  (writeBack o s (result m (s.flag .C)) ((afterFetch o s).setFlag .C (carryOut m))).charge
    (formCost (modifyCycles o) false o s)

/-- The prior carry as a byte. -/
def carryByte (c : Bool) : Byte := if c then 1 else 0

/-- ASL (R121). -/
def execAsl (o : Operand) (s : State) : Outcome :=
  .next (shiftOperand (fun m => m.getLsbD 7) (fun m _ => m <<< 1) o s)

/-- LSR (R122). -/
def execLsr (o : Operand) (s : State) : Outcome :=
  .next (shiftOperand (fun m => m.getLsbD 0) (fun m _ => m >>> 1) o s)

/-- ROL (R123): the prior carry enters bit 0. -/
def execRol (o : Operand) (s : State) : Outcome :=
  .next (shiftOperand (fun m => m.getLsbD 7) (fun m c => (m <<< 1) ||| carryByte c) o s)

/-- ROR (R124): the prior carry enters bit 7. -/
def execRor (o : Operand) (s : State) : Outcome :=
  .next (shiftOperand (fun m => m.getLsbD 0) (fun m c => (carryByte c <<< 7) ||| (m >>> 1)) o s)

end Sys2Proof.Machine
end

