-- ==== Sys2Proof/Machine/Stack.lean ====
section
/-! DEFINITION. Stack operations (46_stack.md). -/

namespace Sys2Proof.Machine

open Sys2Proof

/-- PHA (R167). -/
def execPha (s : State) : Outcome := .next (implied 3 (fun t => t.push (t.reg .A)) s)

/-- PLA (R168; its flags UNVERIFIED, log 12). -/
def execPla (s : State) : Outcome := .next (implied 4 (fun t => t.popped.setRegZN .A t.pulled) s)

/-- PHP (R169): the copy has Break and Unused set; live Break is cleared after the push (UNVERIFIED, log 8). -/
def execPhp (s : State) : Outcome :=
  .next (implied 3 (fun t =>
    let pushed := t.push (pushedCopy t.p)
    if Config.phpClearsB then pushed.setFlag .B false else pushed) s)

/-- PLP (R170). -/
def execPlp (s : State) : Outcome := .next (implied 4 (fun t => t.popped.setStatus (plpStatus t.pulled)) s)

end Sys2Proof.Machine
end

