-- ==== Sys2Proof/Machine/System.lean ====
section
/-! DEFINITION. Software break, return from interrupt, flag operations and no-ops (48_break_flags_nop.md). -/

namespace Sys2Proof.Machine

open Sys2Proof

/-- BRK (R195): `pc` already stands past the one opcode byte, and the address pushed is one more (UNVERIFIED, log 6).
The live Break and Unused bits stay; the copy is made before Interrupt-disable is set. -/
def execBrk (s : State) : Outcome :=
  .next (implied 7 (fun t => t.enterHandler (t.pc + 1) (pushedCopy t.p) Config.vecIrq) s)

/-- RTI (R196). -/
def execRti (s : State) : Outcome := .next (implied 6 State.leaveHandler s)

/-- CLC (R197). -/
def execClc (s : State) : Outcome := .next (implied 2 (fun t => t.setFlag .C false) s)

/-- SEC (R198). -/
def execSec (s : State) : Outcome := .next (implied 2 (fun t => t.setFlag .C true) s)

/-- CLI (R199). -/
def execCli (s : State) : Outcome := .next (implied 2 (fun t => t.setFlag .I false) s)

/-- SEI (R200). -/
def execSei (s : State) : Outcome := .next (implied 2 (fun t => t.setFlag .I true) s)

/-- CLD (R201). -/
def execCld (s : State) : Outcome := .next (implied 2 (fun t => t.setFlag .D false) s)

/-- SED (R202). -/
def execSed (s : State) : Outcome := .next (implied 2 (fun t => t.setFlag .D true) s)

/-- CLV (R203). -/
def execClv (s : State) : Outcome := .next (implied 2 (fun t => t.setFlag .V false) s)

/-- NOP (R204). -/
def execNop (s : State) : Outcome := .next (implied 2 (fun t => t) s)

/-- UND, one-byte form (R205; UNVERIFIED, log 2): whatever the undocumented byte, a no-op. -/
def execUndImp (_op : Byte) (s : State) : Outcome := .next (implied 2 (fun t => t) s)

/-- UND, three-byte form (R206; UNVERIFIED, log 2): the Absolute,X routine runs, nothing is read at its address, and
the page-crossing cycle is charged. -/
def execUndAbx (_op : Byte) (w : Word) (s : State) : Outcome :=
  .next ((afterMode (.abx w) s).charge (formCost 4 true (.abx w) s))

end Sys2Proof.Machine
end

