-- ==== Sys2Proof/Machine/Transfer.lean ====
section
/-! DEFINITION. Loads, stores and register transfers (45_load_store_transfer.md). -/

namespace Sys2Proof.Machine

open Sys2Proof

/-- Load a register with the fetched byte (R145 to R147). -/
def loadReg (r : Reg) (o : Operand) (s : State) : State :=
  ((afterFetch o s).setRegZN r (fetchOperand o s)).charge (formCost (readCycles o) true o s)

/-- LDA (R145). -/
def execLda (o : Operand) (s : State) : Outcome := .next (loadReg .A o s)

/-- LDX (R146). -/
def execLdx (o : Operand) (s : State) : Outcome := .next (loadReg .X o s)

/-- LDY (R147). -/
def execLdy (o : Operand) (s : State) : Outcome := .next (loadReg .Y o s)

/-- Store a register at the resolved address; nothing is fetched and no flag changes (R148 to R150). -/
def storeReg (r : Reg) (o : Operand) (s : State) : State :=
  ((afterMode o s).write (resolve o s).addr (s.reg r)).charge (formCost (storeCycles o) false o s)

/-- STA (R148). -/
def execSta (o : Operand) (s : State) : Outcome := .next (storeReg .A o s)

/-- STX (R149). -/
def execStx (o : Operand) (s : State) : Outcome := .next (storeReg .X o s)

/-- STY (R150). -/
def execSty (o : Operand) (s : State) : Outcome := .next (storeReg .Y o s)

/-- TAX (R151). -/
def execTax (s : State) : Outcome := .next (implied 2 (fun t => t.setRegZN .X (t.reg .A)) s)

/-- TAY (R152). -/
def execTay (s : State) : Outcome := .next (implied 2 (fun t => t.setRegZN .Y (t.reg .A)) s)

/-- TXA (R153). -/
def execTxa (s : State) : Outcome := .next (implied 2 (fun t => t.setRegZN .A (t.reg .X)) s)

/-- TYA (R154). -/
def execTya (s : State) : Outcome := .next (implied 2 (fun t => t.setRegZN .A (t.reg .Y)) s)

/-- TSX (R155): no flag changes (90_conflicts.md C3). -/
def execTsx (s : State) : Outcome := .next (implied 2 (fun t => t.setReg .X (t.reg .SP)) s)

/-- TXS (R156): no flag changes. -/
def execTxs (s : State) : Outcome := .next (implied 2 (fun t => t.setReg .SP (t.reg .X)) s)

end Sys2Proof.Machine
end

