-- ==== Sys2Proof/Machine/Clock.lean ====
section
/-! DEFINITION. The four commands (49_dispatch_clock.md, 60_exceptions.md, 70_reset_and_hazards.md), the dispatch of
one instruction, and the Step framing. -/

namespace Sys2Proof.Machine

open Sys2Proof

/-! ## Fetch and dispatch -/

/-- The instruction at `pc`: the opcode byte and the operand bytes after it, addresses modulo 65536 (R13, R94).
Bytes beyond the instruction's length are looked at and play no part (log 20). -/
def State.instrAt (s : State) : Instr :=
  decodeBytes (s.read s.pc) (s.read (s.pc + 1)) (s.read (s.pc + 2))

/-- The fetched opcode byte goes to its scratch field (R21, R216). -/
def State.latchOpcode (s : State) : State := { s with opcode := s.read s.pc }

/-- `Dispatch()` (R216): one fetch, decode and execute pass; the cost is left in `countdown`. -/
def dispatch (s : State) : Outcome := exec s.instrAt s.latchOpcode

/-! ## The commands -/

/-- The end of every tick: `countdown` is decremented (R215). -/
def State.tickEnd (s : State) : State := s.charge (s.countdown - 1)

/-- `Clock()` (R215). -/
def clockCommand (s : State) : Outcome :=
  if s.countdown = 0 then
    match dispatch s with
    | .next t => .next t.tickEnd
    | .fault r => .fault r
    | .refused r => .refused r
  else .next s.tickEnd

/-- `IRQ()` (R232): taken when Interrupt-disable is clear, else dropped without trace (R236); whatever `countdown`
holds (R238; UNVERIFIED, log 14). -/
def irqCommand (s : State) : State := if s.flag .I then s else s.interruptEntry Config.vecIrq 7

/-- `NMI()` (R233): always taken. -/
def nmiCommand (s : State) : State := s.interruptEntry Config.vecNmi 8

/-- `Reset()` (R260): the vector is read from the store, which is left as it is (R261; UNVERIFIED, log 5). -/
def resetCommand (s : State) : State :=
  { s with
    a := 0x00
    x := 0x00
    y := 0x00
    sp := 0xFD
    p := 0x20
    pc := s.read16 Config.vecReset
    opcode := 0x00
    addrAbs := 0x0000
    addrRel := 0x0000
    fetched := 0x00
    countdown := 8 }

/-- Perform one input on a state from whose list it was taken (R231; a host write R48, log 23). -/
def perform (e : Input) (s : State) : Outcome :=
  match e with
  | .command .reset => .next (resetCommand s)
  | .command .clock => clockCommand s
  | .command .irq => .next (irqCommand s)
  | .command .nmi => .next (nmiCommand s)
  | .hostWrite addr v => .next (s.write addr v)

/-! ## The Step framing -/

/-- `Step()` (R219): a whole instruction as one command, which returns its cost and leaves `countdown` zero; the
driver consumes that many ticks itself. R219 defines it at `countdown == 0` only: that it dispatches at once at any
other `countdown` too, and drops what was left of it, is the model's (DESIGN CHOICE, log 24). -/
def stepWhole (s : State) : Outcome × Nat :=
  match dispatch s with
  | .next t => (.next (t.charge 0), t.countdown)
  | .fault r => (.fault r, 0)
  | .refused r => (.refused r, 0)

end Sys2Proof.Machine
end

