-- ==== Sys2Proof/Machine/Step.lean ====
section
/-! DEFINITION. One step of the machine: the next input is taken and performed (60_exceptions.md R231). -/

namespace Sys2Proof.Machine

open Sys2Proof

/-- One step: the oldest input still to come, or Clock when none is listed (log 15). -/
def step (s : State) : Host.Outcome State Fault Refusal :=
  match s.inputs with
  | [] => clockCommand s
  | e :: rest => perform e (s.setInputs rest)

/-- The state whose very next step fetches and runs the instruction of a table word: its bytes at `pc`, the core
idle, and a Clock command next (log 17). -/
def State.withFetchWord (s : State) (nbits w : Nat) : State :=
  ((s.writeBytes s.pc (tableBytes nbits w)).charge 0).setInputs (.command .clock :: s.inputs)

end Sys2Proof.Machine
end

