-- ==== Sys2Proof/Safety.lean ====
section
/-! DEFINITION. The terms in which claims about the machine are stated: what a step may leave unchanged, the
invariant of the model, which parts of the state no program can see, and the end of a run. -/

namespace Sys2Proof.Machine

open Sys2Proof

/-! ## Frames -/

/-- Every register outside the list holds what it held. -/
def SameRegs (except : List Reg) (s t : State) : Prop := ∀ r, r ∉ except → t.reg r = s.reg r

/-- Every flag of `P` outside the list holds what it held (the eight flags are all of `P`, R14). -/
def SameFlags (except : List StatusFlag) (s t : State) : Prop := ∀ f, f ∉ except → t.flag f = s.flag f

/-- Every byte of memory outside the listed addresses reads as it read. -/
def SameMem (except : List Word) (s t : State) : Prop := ∀ a, a ∉ except → t.read a = s.read a

/-- What an instruction leaves unchanged: registers, flags, memory, and the inputs to come. `pc`, `countdown` and the
scratch fields are not spoken of. -/
def Frame (regs : List Reg) (flags : List StatusFlag) (stored : List Word) (s t : State) : Prop :=
  SameRegs regs s t ∧ SameFlags flags s t ∧ SameMem stored s t ∧ t.inputs = s.inputs

/-! ## Safety and the invariant -/

/-- A step can be taken: the machine neither faults nor refuses. -/
def Safe (s : State) : Prop := ∃ t, step s = .next t

/-- The invariant: the store is in canonical form (DESIGN CHOICE, log 16), and the countdown is at most 8 (R22). -/
def MachineInv (s : State) : Prop := s.mem.wf ∧ s.countdown ≤ 8

/-- An instruction boundary at which the driver's next command is Clock (R7). -/
def Ready (s : State) : Prop := s.countdown = 0 ∧ (s.inputs = [] ∨ ∃ rest, s.inputs = .command .clock :: rest)

/-! ## What no program can see -/

/-- The state with its scratch fields cleared (R21). -/
def forgetScratch (s : State) : State := { s with opcode := 0, addrAbs := 0, addrRel := 0, fetched := 0 }

/-- The state with its scratch fields and the live Break and Unused bits cleared (R20, R21). -/
def forgetHidden (s : State) : State := { forgetScratch s with p := s.p &&& 0xCF }

/-! ## The end of a run (70_reset_and_hazards.md R268) -/

/-- Whether a branch instruction is taken; false for every other instruction (R176 to R183). -/
def branchTaken (i : Instr) (s : State) : Bool :=
  match i with
  | .bcc _ => !s.flag .C
  | .bcs _ => s.flag .C
  | .bne _ => !s.flag .Z
  | .beq _ => s.flag .Z
  | .bpl _ => !s.flag .N
  | .bmi _ => s.flag .N
  | .bvc _ => !s.flag .V
  | .bvs _ => s.flag .V
  | _ => false

/-- The offset byte of a branch. -/
def branchOffset : Instr → Option Byte
  | .bcc d | .bcs d | .bne d | .beq d | .bpl d | .bmi d | .bvc d | .bvs d => some d
  | _ => none

/-- The instruction at `pc` jumps to itself: JMP to its own address, by its word or through a pointer, or a taken branch
with offset 0xFE. -/
def AtSelfJump (s : State) : Prop :=
  s.instrAt = .jmp (.abs s.pc) ∨ (∃ ptr, s.instrAt = .jmp (.ind ptr) ∧ (resolve (.ind ptr) s).addr = s.pc) ∨
    (branchOffset s.instrAt = some 0xFE ∧ branchTaken s.instrAt s = true)

end Sys2Proof.Machine
end

