-- ==== Sys2Proof/Certificates/Slice0/Obligations.lean ====
section
/-! DEFINITION. The statements for the provers. Every statement of an instruction's result ends in an equation
`exec i s = .next t`: where it holds the instruction completes. Encodings are written out from the rules'
`Encoding:` lines, base cycles from spec/opcode_table.json (both the spec's decision D5, log 1), results as exact
natural-number or integer arithmetic where the rules give them so. Status bytes rest on decision D2 (log 3). -/

namespace Sys2Proof.Claims

open Sys2Proof Sys2Proof.Machine

/-! ## Shapes of statements -/

/-- A row of an instruction's form table: mode, opcode byte, base cycles (30_encoding.md R66). -/
abbrev FormRow := Mode × Byte × Nat

/-- The forms of an instruction are exactly the rows', and each row's opcode byte before the operand bytes decodes to
that form, whatever bytes follow. -/
def EncodedAs (mk : Operand → Instr) (rows : List FormRow) : Prop :=
  ∀ o, ((mk o).wf = true ↔ o.mode ∈ rows.map (·.1)) ∧
    ∀ row ∈ rows, row.1 = o.mode → ∀ rest, decode (row.2.1 :: operandBytes o ++ rest) = .ok (mk o, rest)

/-- The cost is the row's base, plus one when the operation agrees to the page-crossing cycle and the mode routine
reports it (49_dispatch_clock.md R217). -/
def CostsAs (rows : List FormRow) (ox : Bool) (o : Operand) (s t : State) : Prop :=
  ∀ row ∈ rows, row.1 = o.mode → t.countdown = row.2.2 + (if ox = true ∧ (resolve o s).ax = true then 1 else 0)

/-- An instruction with an operand: its encodings, and in every form that it runs to a next state with its result, its
frame, `pc` past the instruction and its cost. `regs`, `flags` and `stored` are all it may change of registers, flags
and memory. -/
def OperandForms (mk : Operand → Instr) (rows : List FormRow) (ox : Bool) (regs : Operand → List Reg)
    (flags : List StatusFlag) (stored : Operand → State → List Word) (result : Operand → State → State → Prop) : Prop :=
  EncodedAs mk rows ∧
  ∀ o s, (mk o).wf = true → ∃ t, exec (mk o) s = .next t ∧ result o s t ∧
    Frame (regs o) flags (stored o s) s t ∧ t.pc = s.pc + BitVec.ofNat 16 o.mode.length ∧ CostsAs rows ox o s t

/-- A one-byte instruction: its encoding, and that in every state it runs to a next state with its result, its frame
and its cost. -/
def ImpliedForm (i : Instr) (op : Byte) (base : Nat) (regs : List Reg) (flags : List StatusFlag)
    (stored : State → List Word) (result : State → State → Prop) : Prop :=
  (∀ rest, decode (op :: rest) = .ok (i, rest)) ∧ i.wf = true ∧
  ∀ s, ∃ t, exec i s = .next t ∧ result s t ∧ Frame regs flags (stored s) s t ∧ t.countdown = base

/-- A branch: its encoding, and that it runs to a next state that leaves everything but `pc` (and `countdown` and the
scratch fields), goes where R175 says and costs what R175 says. -/
def BranchForm (mk : Byte → Instr) (op : Byte) (taken : State → Bool) : Prop :=
  (∀ d rest, decode (op :: d :: rest) = .ok (mk d, rest)) ∧ (∀ d, (mk d).wf = true) ∧
  ∀ d s, ∃ t, exec (mk d) s = .next t ∧ Frame [] [] [] s t ∧
    (taken s = false → t.pc = s.pc + 2 ∧ t.countdown = 2) ∧
    (taken s = true →
      (t.pc.toNat : Int) = ((s.pc.toNat : Int) + 2 + d.toInt) % 65536 ∧
      t.countdown = if t.pc.toNat / 256 = (s.pc + 2).toNat / 256 then 3 else 4)

/-- Zero and Negative from a byte (10_state.md R18). -/
def ZNFrom (v : Byte) (t : State) : Prop :=
  (t.flag .Z = true ↔ v = 0) ∧ (t.flag .N = true ↔ 128 ≤ v.toNat)

/-- `pc` stands at the byte after a one-byte instruction. -/
def PastOneByte (s t : State) : Prop := t.pc = s.pc + 1

/-- All eight flags. -/
def allFlags : List StatusFlag := [.C, .Z, .I, .D, .B, .U, .V, .N]

/-- The 99 one-byte undocumented opcode bytes, as 30_encoding.md R68 lists them. -/
def oneByteNoOps : List Byte :=
  [0x02, 0x03, 0x04, 0x07, 0x0B, 0x0C, 0x0F, 0x12, 0x13, 0x14, 0x17, 0x1A, 0x1B] ++
  [0x1F, 0x22, 0x23, 0x27, 0x2B, 0x2F, 0x32, 0x33, 0x34, 0x37, 0x3A, 0x3B, 0x3F] ++
  [0x42, 0x43, 0x44, 0x47, 0x4B, 0x4F, 0x52, 0x53, 0x54, 0x57, 0x5A, 0x5B, 0x5F] ++
  [0x62, 0x63, 0x64, 0x67, 0x6B, 0x6F, 0x72, 0x73, 0x74, 0x77, 0x7A, 0x7B, 0x7F] ++
  [0x80, 0x82, 0x83, 0x87, 0x89, 0x8B, 0x8F, 0x92, 0x93, 0x97, 0x9B, 0x9C, 0x9E] ++
  [0x9F, 0xA3, 0xA7, 0xAB, 0xAF, 0xB2, 0xB3, 0xB7, 0xBB, 0xBF, 0xC2, 0xC3, 0xC7] ++
  [0xCB, 0xCF, 0xD2, 0xD3, 0xD4, 0xD7, 0xDA, 0xDB, 0xDF, 0xE2, 0xE3, 0xE7, 0xEB] ++
  [0xEF, 0xF2, 0xF3, 0xF4, 0xF7, 0xFA, 0xFB, 0xFF]

/-- No register, of an operand. -/
def noRegs (_ : Operand) : List Reg := []

/-- Nothing stored, of an operand. -/
def storesNothing (_ : Operand) (_ : State) : List Word := []

/-- The resolved address is stored to. -/
def storesOperand (o : Operand) (s : State) : List Word := [(resolve o s).addr]

/-- The three stack locations that a handler's frame takes. -/
def frameBytes (s : State) : List Word := [stackAddr s.sp, stackAddr (s.sp - 1), stackAddr (s.sp - 2)]

/-- The word at a vector, low byte first (20_memory.md R44). -/
def vectorWord (s : State) (vec : Word) : Word := joinBytes (s.read (vec + 1)) (s.read vec)

/-- The sum of two bytes and a carry: low byte, Carry, Zero, Negative, and Overflow when the sum of the signed bytes
and the carry is out of range (41_add_subtract.md R100). -/
def AddsTo (a v : Byte) (c : Bool) (t : State) : Prop :=
  t.a.toNat = (a.toNat + v.toNat + c.toNat) % 256 ∧
  (t.flag .C = true ↔ 255 < a.toNat + v.toNat + c.toNat) ∧
  ZNFrom t.a t ∧
  (t.flag .V = true ↔ a.toInt + v.toInt + c.toNat < -128 ∨ 127 < a.toInt + v.toInt + c.toNat)

/-- The difference `A - m - (1 - C)`: low byte, Carry when there is no borrow, Zero, Negative, and Overflow when the
difference of the signed bytes is out of range (41_add_subtract.md R102). -/
def SubtractsTo (a m : Byte) (c : Bool) (t : State) : Prop :=
  (t.a.toNat : Int) = ((a.toNat : Int) - m.toNat - (1 - c.toNat)) % 256 ∧
  (t.flag .C = true ↔ m.toNat + (1 - c.toNat) ≤ a.toNat) ∧
  ZNFrom t.a t ∧
  (t.flag .V = true ↔ a.toInt - m.toInt - (1 - (c.toNat : Int)) < -128 ∨ 127 < a.toInt - m.toInt - (1 - (c.toNat : Int)))

/-- Where a shift puts its result: the accumulator in the Implied form, else the resolved address (R120). -/
def putBack (o : Operand) (s t : State) : Byte := if o = .imp then t.a else t.read (resolve o s).addr

/-- A shift or rotate in all its forms: result and Carry from operand and prior carry (R120). -/
def ShiftForms (mk : Operand → Instr) (rows : List FormRow) (result : Nat → Nat → Nat) (carry : Nat → Prop) : Prop :=
  OperandForms mk rows false (fun o => if o = .imp then [.A] else []) [.C, .Z, .N]
    (fun o s => if o = .imp then [] else [(resolve o s).addr])
    (fun o s t =>
      putBack o s t = BitVec.ofNat 8 (result (fetchOperand o s).toNat (s.flag .C).toNat) ∧
      ZNFrom (putBack o s t) t ∧ (t.flag .C = true ↔ carry (fetchOperand o s).toNat))

/-- A logical operation in all its forms (R110 to R112). -/
def LogicForms (mk : Operand → Instr) (rows : List FormRow) (f : Byte → Byte → Byte) : Prop :=
  OperandForms mk rows true (fun _ => [.A]) [.Z, .N] storesNothing
    (fun o s t => t.a = f s.a (fetchOperand o s) ∧ ZNFrom t.a t)

/-- A compare in all its forms: unsigned order, equality, and bit 7 of the difference (R130). -/
def CompareForms (mk : Operand → Instr) (rows : List FormRow) (ox : Bool) (r : Reg) : Prop :=
  OperandForms mk rows ox noRegs [.C, .Z, .N] storesNothing
    (fun o s t =>
      (t.flag .C = true ↔ (fetchOperand o s).toNat ≤ (s.reg r).toNat) ∧
      (t.flag .Z = true ↔ s.reg r = fetchOperand o s) ∧
      (t.flag .N = true ↔ 128 ≤ ((s.reg r).toNat + 256 - (fetchOperand o s).toNat) % 256))

/-- A load in all its forms (R145 to R147). -/
def LoadForms (mk : Operand → Instr) (rows : List FormRow) (r : Reg) : Prop :=
  OperandForms mk rows true (fun _ => [r]) [.Z, .N] storesNothing
    (fun o s t => t.reg r = fetchOperand o s ∧ ZNFrom (fetchOperand o s) t)

/-- A store in all its forms: no flag, no register (R148 to R150). -/
def StoreForms (mk : Operand → Instr) (rows : List FormRow) (r : Reg) : Prop :=
  OperandForms mk rows false noRegs [] storesOperand (fun o s t => t.read (resolve o s).addr = s.reg r)

/-- A memory increment or decrement in all its forms (R134, R135). -/
def StepMemoryForms (mk : Operand → Instr) (rows : List FormRow) (delta : Int) : Prop :=
  OperandForms mk rows false noRegs [.Z, .N] storesOperand
    (fun o s t =>
      ((t.read (resolve o s).addr).toNat : Int) = ((s.read (resolve o s).addr).toNat + delta) % 256 ∧
      ZNFrom (t.read (resolve o s).addr) t)

/-- A register increment or decrement (R136 to R139). -/
def StepRegisterForm (i : Instr) (op : Byte) (base : Nat) (r : Reg) (delta : Int) : Prop :=
  ImpliedForm i op base [r] [.Z, .N] (fun _ => [])
    (fun s t => ((t.reg r).toNat : Int) = ((s.reg r).toNat + delta) % 256 ∧ ZNFrom (t.reg r) t ∧ PastOneByte s t)

/-- A transfer that sets Zero and Negative (R151 to R154). -/
def TransferForm (i : Instr) (op : Byte) (base : Nat) (src dst : Reg) : Prop :=
  ImpliedForm i op base [dst] [.Z, .N] (fun _ => [])
    (fun s t => t.reg dst = s.reg src ∧ ZNFrom (s.reg src) t ∧ PastOneByte s t)

/-- An instruction that writes one flag and nothing else (R197 to R203). -/
def FlagForm (i : Instr) (op : Byte) (base : Nat) (f : StatusFlag) (b : Bool) : Prop :=
  ImpliedForm i op base [] [f] (fun _ => []) (fun s t => t.flag f = b ∧ PastOneByte s t)

/-- `n` Clock commands, one after another (49_dispatch_clock.md R215). -/
def clocks : Nat → State → Outcome
  | 0, s => .next s
  | n + 1, s =>
    match clockCommand s with
    | .next t => clocks n t
    | .fault r => .fault r
    | .refused r => .refused r

/-- What an interrupt entry leaves, from the state `s` in which it is taken (60_exceptions.md R234). -/
def EntersInterrupt (vec : Word) (cost : Nat) (s t : State) : Prop :=
  t.read (stackAddr s.sp) = hi8 s.pc ∧ t.read (stackAddr (s.sp - 1)) = lo8 s.pc ∧
  (∀ f, getFlag (t.read (stackAddr (s.sp - 2))) f = if f = .U then true else if f = .B then false else s.flag f) ∧
  t.flag .B = false ∧ t.flag .U = true ∧ t.flag .I = true ∧ t.sp = s.sp - 3 ∧ t.pc = vectorWord s vec ∧
  t.countdown = cost ∧ Frame [.SP] [.B, .U, .I] (frameBytes s) s t

/-! ## Who writes what: the tables of 10_state.md and 20_memory.md -/

/-- The instructions that write a flag (R17, first column; PLP and RTI write all). -/
def writesFlag (f : StatusFlag) (i : Instr) : Bool :=
  match i with
  | .plp | .rti => true
  | .adc _ | .sbc _ => [StatusFlag.C, .Z, .V, .N].contains f
  | .bit _ => [StatusFlag.Z, .V, .N].contains f
  | .asl _ | .lsr _ | .rol _ | .ror _ | .cmp _ | .cpx _ | .cpy _ => [StatusFlag.C, .Z, .N].contains f
  | .and _ | .ora _ | .eor _ | .inc _ | .dec _ | .inx | .iny | .dex | .dey => [StatusFlag.Z, .N].contains f
  | .lda _ | .ldx _ | .ldy _ | .tax | .tay | .txa | .tya | .pla => [StatusFlag.Z, .N].contains f
  | .clc | .sec => f == .C
  | .cli | .sei | .brk => f == .I
  | .cld | .sed => f == .D
  | .clv => f == .V
  | .php => f == .B
  | .sta _ | .stx _ | .sty _ | .tsx | .txs | .pha => false
  | .bcc _ | .bcs _ | .beq _ | .bne _ | .bmi _ | .bpl _ | .bvc _ | .bvs _ => false
  | .jmp _ | .jsr _ | .rts | .nop | .undImp _ | .undAbx _ _ => false

/-- The instructions that write a register (R10, column `written by`); a shift writes A in Implied mode only. -/
def writesReg (r : Reg) (i : Instr) : Bool :=
  match i with
  | .adc _ | .sbc _ | .and _ | .ora _ | .eor _ | .lda _ | .txa | .tya => r == .A
  | .asl o | .lsr o | .rol o | .ror o => r == .A && o == .imp
  | .ldx _ | .tax | .tsx | .inx | .dex => r == .X
  | .ldy _ | .tay | .iny | .dey => r == .Y
  | .pla => r == .A || r == .SP
  | .txs | .pha | .php | .plp | .jsr _ | .rts | .brk | .rti => r == .SP
  | .bit _ | .cmp _ | .cpx _ | .cpy _ | .inc _ | .dec _ | .sta _ | .stx _ | .sty _ => false
  | .bcc _ | .bcs _ | .beq _ | .bne _ | .bmi _ | .bpl _ | .bvc _ | .bvs _ | .jmp _ => false
  | .clc | .sec | .cli | .sei | .cld | .sed | .clv | .nop | .undImp _ | .undAbx _ _ => false

/-- The addresses an instruction may write in a state (20_memory.md R53, rows of writes). -/
def writtenAddresses (i : Instr) (s : State) : List Word :=
  match i with
  | .sta o | .stx o | .sty o | .inc o | .dec o => [(resolve o s).addr]
  | .asl o | .lsr o | .rol o | .ror o => if o = .imp then [] else [(resolve o s).addr]
  | .pha | .php => [stackAddr s.sp]
  | .jsr _ => [stackAddr s.sp, stackAddr (s.sp - 1)]
  | .brk => frameBytes s
  | .adc _ | .sbc _ | .and _ | .ora _ | .eor _ | .bit _ | .cmp _ | .cpx _ | .cpy _ | .lda _ | .ldx _ | .ldy _ => []
  | .inx | .iny | .dex | .dey | .tax | .tay | .txa | .tya | .tsx | .txs | .pla | .plp => []
  | .bcc _ | .bcs _ | .beq _ | .bne _ | .bmi _ | .bpl _ | .bvc _ | .bvs _ | .jmp _ | .rts | .rti => []
  | .clc | .sec | .cli | .sei | .cld | .sed | .clv | .nop | .undImp _ | .undAbx _ _ => []

/-- What an instruction stores at its written addresses, in their order (R53; the values R120 to R124, R134, R135, R148
to R150, R167, R169, R185, R195). -/
def storedValues (i : Instr) (s : State) : List Byte :=
  match i with
  | .sta _ | .pha => [s.a]
  | .stx _ => [s.x]
  | .sty _ => [s.y]
  | .inc o => [BitVec.ofNat 8 ((fetchOperand o s).toNat + 1)]
  | .dec o => [BitVec.ofNat 8 ((fetchOperand o s).toNat + 255)]
  | .asl o => [BitVec.ofNat 8 (2 * (fetchOperand o s).toNat)]
  | .lsr o => [BitVec.ofNat 8 ((fetchOperand o s).toNat / 2)]
  | .rol o => [BitVec.ofNat 8 (2 * (fetchOperand o s).toNat + (s.flag .C).toNat)]
  | .ror o => [BitVec.ofNat 8 ((fetchOperand o s).toNat / 2 + 128 * (s.flag .C).toNat)]
  | .php => [s.p ||| 0x30]
  | .jsr _ => [hi8 (s.pc + 2), lo8 (s.pc + 2)]
  | .brk => [hi8 (s.pc + 2), lo8 (s.pc + 2), s.p ||| 0x30]
  | .adc _ | .sbc _ | .and _ | .ora _ | .eor _ | .bit _ | .cmp _ | .cpx _ | .cpy _ | .lda _ | .ldx _ | .ldy _ => []
  | .inx | .iny | .dex | .dey | .tax | .tay | .txa | .tya | .tsx | .txs | .pla | .plp => []
  | .bcc _ | .bcs _ | .beq _ | .bne _ | .bmi _ | .bpl _ | .bvc _ | .bvs _ | .jmp _ | .rts | .rti => []
  | .clc | .sec | .cli | .sei | .cld | .sed | .clv | .nop | .undImp _ | .undAbx _ _ => []

/-- The byte at an address after an instruction's stores: what it stored there, else what was there. -/
def readAfterStores (i : Instr) (s : State) (a : Word) : Byte :=
  match ((writtenAddresses i s).zip (storedValues i s)).find? (fun c => c.1 == a) with
  | some c => c.2
  | none => s.read a

/-- The instructions that push or write all of `P`, or write Decimal: the only ones whose effect Decimal enters. -/
def touchesDecimal : Instr → Bool
  | .php | .plp | .brk | .rti | .cld | .sed => true
  | _ => false

end Sys2Proof.Claims

open Sys2Proof Sys2Proof.Machine Sys2Proof.Claims

/-! ## Encoding (30_encoding.md) -/

/-- Decoding the bytes of a well-formed instruction gives it back, with every operand, and leaves the bytes after it. -/
def Obligations.DecodeOfEncodeIsIdentity : Prop :=
  ∀ (i : Instr) (rest : List Byte), i.wf = true → decode (encode i ++ rest) = .ok (i, rest)

/-- R69, R65: whatever the bytes, they are a well-formed instruction, whose encoding they begin with, and which runs. -/
def Obligations.EveryByteIsACompleteInstruction : Prop :=
  ∀ b0 b1 b2 : Byte, (decodeBytes b0 b1 b2).wf = true ∧ encode (decodeBytes b0 b1 b2) <+: [b0, b1, b2] ∧
    ∀ s, ∃ t, exec (decodeBytes b0 b1 b2) s = .next t

/-- R70, R60: the length follows from the opcode byte alone, is 1, 2 or 3, and only a list shorter than it is refused. -/
def Obligations.LengthFollowsFromOpcodeByte : Prop :=
  ∀ (b0 : Byte) (rest : List Byte),
    1 ≤ opcodeLength b0 ∧ opcodeLength b0 ≤ 3 ∧
    (∀ b1 b2, (decodeBytes b0 b1 b2).length = opcodeLength b0) ∧
    ((∃ i tail, decode (b0 :: rest) = .ok (i, tail) ∧ tail = rest.drop (opcodeLength b0 - 1)) ↔
      opcodeLength b0 ≤ rest.length + 1)

/-- The examples of R71's table, all thirteen, written out from the spec, decode to the instructions they stand for. -/
def Obligations.WordsWrittenOutDecode : Prop :=
  decode [0x18] = .ok (.clc, []) ∧ decode [0x0A] = .ok (.asl .imp, []) ∧
  decode [0xA9, 0x44] = .ok (.lda (.imm 0x44), []) ∧ decode [0xA5, 0x44] = .ok (.lda (.zp0 0x44), []) ∧
  decode [0xB5, 0x44] = .ok (.lda (.zpx 0x44), []) ∧ decode [0xB6, 0x44] = .ok (.ldx (.zpy 0x44), []) ∧
  decode [0xAD, 0x00, 0x44] = .ok (.lda (.abs 0x4400), []) ∧
  decode [0xBD, 0x00, 0x44] = .ok (.lda (.abx 0x4400), []) ∧
  decode [0xB9, 0x00, 0x44] = .ok (.lda (.aby 0x4400), []) ∧
  decode [0x6C, 0x97, 0x55] = .ok (.jmp (.ind 0x5597), []) ∧ decode [0xA1, 0x44] = .ok (.lda (.izx 0x44), []) ∧
  decode [0xB1, 0x44] = .ok (.lda (.izy 0x44), []) ∧ decode [0xD0, 0xEE] = .ok (.bne 0xEE, [])

/-! ## Memory (20_memory.md) -/

/-- R42: a write replaces the byte at its address and no other, at every address. -/
def Obligations.WriteReplacesOneByte : Prop :=
  ∀ (s : State) (a b : Word) (v : Byte), (s.write a v).read b = if b = a then v else s.read b

/-- Two stores in canonical form that read alike at every address are equal data. The form is the model's own (DESIGN
CHOICE, log 16). -/
def Obligations.EqualReadsMeanEqualStores : Prop :=
  ∀ s t : State, s.mem.wf → t.mem.wf → (∀ a : Word, s.read a = t.read a) → s.mem = t.mem

/-- R44: `Read16` takes the low byte at its address and the high byte at the next, modulo 65536. -/
def Obligations.Read16IsLittleEndianAndWraps : Prop :=
  ∀ (s : State) (a : Word), (s.read16 a).toNat = 256 * (s.read (a + 1)).toNat + (s.read a).toNat ∧
    (s.read16 0xFFFF).toNat = 256 * (s.read 0x0000).toNat + (s.read 0xFFFF).toNat

/-- R50: whatever an instruction stores, the very next fetch sees it: the next instruction is decoded from its three
bytes with the stored ones in place, whichever of the three they are. -/
def Obligations.StoreIsSeenByNextFetch : Prop :=
  ∀ (i : Instr) (s : State), ∃ t, exec i s = .next t ∧
    t.instrAt = decodeBytes (readAfterStores i s t.pc) (readAfterStores i s (t.pc + 1)) (readAfterStores i s (t.pc + 2))

/-! ## Addressing modes (40_addressing_modes.md) -/

/-- R82 to R91: the address each mode resolves, in exact arithmetic with the wrap of the mode, and its extra. -/
def Obligations.ModesResolveAsTheirRulesSay : Prop :=
  ∀ (s : State) (d : Byte) (w : Word),
    (resolve (.imm d) s = ⟨s.pc + 1, false⟩) ∧
    ((resolve (.zp0 d) s).addr.toNat = d.toNat ∧ (resolve (.zp0 d) s).ax = false) ∧
    ((resolve (.zpx d) s).addr.toNat = (d.toNat + s.x.toNat) % 256 ∧ (resolve (.zpx d) s).ax = false) ∧
    ((resolve (.zpy d) s).addr.toNat = (d.toNat + s.y.toNat) % 256 ∧ (resolve (.zpy d) s).ax = false) ∧
    (resolve (.abs w) s = ⟨w, false⟩) ∧
    ((resolve (.abx w) s).addr.toNat = (w.toNat + s.x.toNat) % 65536 ∧
      ((resolve (.abx w) s).ax = true ↔ (resolve (.abx w) s).addr.toNat / 256 ≠ w.toNat / 256)) ∧
    ((resolve (.aby w) s).addr.toNat = (w.toNat + s.y.toNat) % 65536 ∧
      ((resolve (.aby w) s).ax = true ↔ (resolve (.aby w) s).addr.toNat / 256 ≠ w.toNat / 256)) ∧
    ((resolve (.izx d) s).addr.toNat =
        256 * (s.read (BitVec.ofNat 16 ((d.toNat + s.x.toNat + 1) % 256))).toNat +
          (s.read (BitVec.ofNat 16 ((d.toNat + s.x.toNat) % 256))).toNat ∧ (resolve (.izx d) s).ax = false) ∧
    ((resolve (.izy d) s).addr.toNat =
        (256 * (s.read (BitVec.ofNat 16 ((d.toNat + 1) % 256))).toNat + (s.read (BitVec.ofNat 16 d.toNat)).toNat +
          s.y.toNat) % 65536 ∧
      ((resolve (.izy d) s).ax = true ↔
        (resolve (.izy d) s).addr.toNat / 256 ≠ (s.read (BitVec.ofNat 16 ((d.toNat + 1) % 256))).toNat)) ∧
    ((resolve (.ind w) s).addr.toNat =
        256 * (s.read (BitVec.ofNat 16 (256 * (w.toNat / 256) + (w.toNat + 1) % 256))).toNat + (s.read w).toNat ∧
      (resolve (.ind w) s).ax = false)

/-- R93: the fetch helper gives the accumulator in Implied mode and else the byte at the resolved address; the
Immediate form of an instruction at `pc` finds its own operand byte there (DEDUCED, log 20). -/
def Obligations.FetchHelperDeliversTheOperand : Prop :=
  ∀ (s : State) (o : Operand),
    (o = .imp → fetchOperand o s = s.a) ∧
    (o.mode ∉ [Mode.IMP, .IMM] → fetchOperand o s = s.read (resolve o s).addr) ∧
    (∀ d, o = .imm d → s.instrAt.operandBytes = [d] → fetchOperand o s = s.read (resolve o s).addr)

/-! ## Arithmetic and logic (41, 42, 43) -/

/-- R101 with R100: ADC in all eight forms. -/
def Obligations.AdcAddsWithCarry : Prop :=
  OperandForms .adc
    [(.IMM, 0x69, 2), (.ZP0, 0x65, 3), (.ZPX, 0x75, 4), (.ABS, 0x6D, 4),
      (.ABX, 0x7D, 4), (.ABY, 0x79, 4), (.IZX, 0x61, 6), (.IZY, 0x71, 5)]
    true (fun _ => [.A]) [.C, .Z, .V, .N] storesNothing
    (fun o s t => AddsTo s.a (fetchOperand o s) (s.flag .C) t)

/-- R102: SBC in all eight forms. Which byte enters the Overflow formula is the spec's decision D11 (log 9). -/
def Obligations.SbcSubtractsWithBorrow : Prop :=
  OperandForms .sbc
    [(.IMM, 0xE9, 2), (.ZP0, 0xE5, 3), (.ZPX, 0xF5, 4), (.ABS, 0xED, 4),
      (.ABX, 0xFD, 4), (.ABY, 0xF9, 4), (.IZX, 0xE1, 6), (.IZY, 0xF1, 5)]
    true (fun _ => [.A]) [.C, .Z, .V, .N] storesNothing
    (fun o s t => SubtractsTo s.a (fetchOperand o s) (s.flag .C) t)

/-- R19: an instruction that neither pushes nor pulls the status nor writes Decimal does the same whatever Decimal
holds, and leaves it; ADC and SBC among them. -/
def Obligations.DecimalIsNeverRead : Prop :=
  ∀ (i : Instr) (s : State) (b : Bool), touchesDecimal i = false →
    ∃ t, exec i s = .next t ∧ exec i (s.setFlag .D b) = .next (t.setFlag .D b)

/-- R110 to R112: AND, ORA and EOR in all forms. -/
def Obligations.LogicalOperationsCombineIntoA : Prop :=
  LogicForms .and
    [(.IMM, 0x29, 2), (.ZP0, 0x25, 3), (.ZPX, 0x35, 4), (.ABS, 0x2D, 4),
      (.ABX, 0x3D, 4), (.ABY, 0x39, 4), (.IZX, 0x21, 6), (.IZY, 0x31, 5)] (· &&& ·) ∧
  LogicForms .ora
    [(.IMM, 0x09, 2), (.ZP0, 0x05, 3), (.ZPX, 0x15, 4), (.ABS, 0x0D, 4),
      (.ABX, 0x1D, 4), (.ABY, 0x19, 4), (.IZX, 0x01, 6), (.IZY, 0x11, 5)] (· ||| ·) ∧
  LogicForms .eor
    [(.IMM, 0x49, 2), (.ZP0, 0x45, 3), (.ZPX, 0x55, 4), (.ABS, 0x4D, 4),
      (.ABX, 0x5D, 4), (.ABY, 0x59, 4), (.IZX, 0x41, 6), (.IZY, 0x51, 5)] (· ^^^ ·)

/-- R113: BIT in both forms. The whole rule is the spec's decision D15 (log 13). -/
def Obligations.BitTestsMemoryAgainstA : Prop :=
  OperandForms .bit [(.ZP0, 0x24, 3), (.ABS, 0x2C, 4)] false noRegs [.Z, .N, .V] storesNothing
    (fun o s t =>
      (t.flag .Z = true ↔ s.a &&& fetchOperand o s = 0) ∧
      (t.flag .N = true ↔ 128 ≤ (fetchOperand o s).toNat) ∧
      (t.flag .V = true ↔ 64 ≤ (fetchOperand o s).toNat % 128))

/-- R120 to R124: the shifts and rotates, in the accumulator form and the memory forms. -/
def Obligations.ShiftsMoveOneBitThroughCarry : Prop :=
  ShiftForms .asl [(.IMP, 0x0A, 2), (.ZP0, 0x06, 5), (.ZPX, 0x16, 6), (.ABS, 0x0E, 6), (.ABX, 0x1E, 7)]
    (fun m _ => 2 * m) (fun m => 128 ≤ m) ∧
  ShiftForms .lsr [(.IMP, 0x4A, 2), (.ZP0, 0x46, 5), (.ZPX, 0x56, 6), (.ABS, 0x4E, 6), (.ABX, 0x5E, 7)]
    (fun m _ => m / 2) (fun m => m % 2 = 1) ∧
  ShiftForms .rol [(.IMP, 0x2A, 2), (.ZP0, 0x26, 5), (.ZPX, 0x36, 6), (.ABS, 0x2E, 6), (.ABX, 0x3E, 7)]
    (fun m c => 2 * m + c) (fun m => 128 ≤ m) ∧
  ShiftForms .ror [(.IMP, 0x6A, 2), (.ZP0, 0x66, 5), (.ZPX, 0x76, 6), (.ABS, 0x6E, 6), (.ABX, 0x7E, 7)]
    (fun m c => m / 2 + 128 * c) (fun m => m % 2 = 1)

/-! ## Compare, increment, decrement (44) -/

/-- R130 to R133: CMP, CPX and CPY in all forms. CMP's page-crossing cycle is the spec's decision D12 (log 10). -/
def Obligations.ComparesSetCarryZeroNegative : Prop :=
  CompareForms .cmp
    [(.IMM, 0xC9, 2), (.ZP0, 0xC5, 3), (.ZPX, 0xD5, 4), (.ABS, 0xCD, 4),
      (.ABX, 0xDD, 4), (.ABY, 0xD9, 4), (.IZX, 0xC1, 6), (.IZY, 0xD1, 5)] true .A ∧
  CompareForms .cpx [(.IMM, 0xE0, 2), (.ZP0, 0xE4, 3), (.ABS, 0xEC, 4)] false .X ∧
  CompareForms .cpy [(.IMM, 0xC0, 2), (.ZP0, 0xC4, 3), (.ABS, 0xCC, 4)] false .Y

/-- R134, R135: INC and DEC in all forms. -/
def Obligations.IncAndDecStepOneMemoryByte : Prop :=
  StepMemoryForms .inc [(.ZP0, 0xE6, 5), (.ZPX, 0xF6, 6), (.ABS, 0xEE, 6), (.ABX, 0xFE, 7)] 1 ∧
  StepMemoryForms .dec [(.ZP0, 0xC6, 5), (.ZPX, 0xD6, 6), (.ABS, 0xCE, 6), (.ABX, 0xDE, 7)] (-1)

/-- R136 to R139: the register forms. -/
def Obligations.IndexRegistersStepByOne : Prop :=
  StepRegisterForm .inx 0xE8 2 .X 1 ∧ StepRegisterForm .iny 0xC8 2 .Y 1 ∧
  StepRegisterForm .dex 0xCA 2 .X (-1) ∧ StepRegisterForm .dey 0x88 2 .Y (-1)

/-! ## Load, store, transfer (45) -/

/-- R145 to R147: the loads in all forms. Their page-crossing cycle is the spec's decision D12 (log 10). -/
def Obligations.LoadsWriteRegisterAndZN : Prop :=
  LoadForms .lda
    [(.IMM, 0xA9, 2), (.ZP0, 0xA5, 3), (.ZPX, 0xB5, 4), (.ABS, 0xAD, 4),
      (.ABX, 0xBD, 4), (.ABY, 0xB9, 4), (.IZX, 0xA1, 6), (.IZY, 0xB1, 5)] .A ∧
  LoadForms .ldx
    [(.IMM, 0xA2, 2), (.ZP0, 0xA6, 3), (.ZPY, 0xB6, 4), (.ABS, 0xAE, 4), (.ABY, 0xBE, 4)] .X ∧
  LoadForms .ldy
    [(.IMM, 0xA0, 2), (.ZP0, 0xA4, 3), (.ZPX, 0xB4, 4), (.ABS, 0xAC, 4), (.ABX, 0xBC, 4)] .Y

/-- R148 to R150: the stores in all forms. -/
def Obligations.StoresWriteOneByteAndNoFlag : Prop :=
  StoreForms .sta
    [(.ZP0, 0x85, 3), (.ZPX, 0x95, 4), (.ABS, 0x8D, 4), (.ABX, 0x9D, 5),
      (.ABY, 0x99, 5), (.IZX, 0x81, 6), (.IZY, 0x91, 6)] .A ∧
  StoreForms .stx [(.ZP0, 0x86, 3), (.ZPY, 0x96, 4), (.ABS, 0x8E, 4)] .X ∧
  StoreForms .sty [(.ZP0, 0x84, 3), (.ZPX, 0x94, 4), (.ABS, 0x8C, 4)] .Y

/-- R151 to R154: the transfers between A, X and Y. -/
def Obligations.TransfersCopyAndSetZN : Prop :=
  TransferForm .tax 0xAA 2 .A .X ∧ TransferForm .tay 0xA8 2 .A .Y ∧
  TransferForm .txa 0x8A 2 .X .A ∧ TransferForm .tya 0x98 2 .Y .A

/-- R155, R156: TSX and TXS write their register and no flag. -/
def Obligations.StackPointerTransfersSetNoFlag : Prop :=
  ImpliedForm .tsx 0xBA 2 [.X] [] (fun _ => []) (fun s t => t.x = s.sp ∧ PastOneByte s t) ∧
  ImpliedForm .txs 0x9A 2 [.SP] [] (fun _ => []) (fun s t => t.sp = s.x ∧ PastOneByte s t)

/-! ## Stack (46) -/

/-- R165, R166, R12: the stack primitives, inside page one at every stack pointer. -/
def Obligations.StackPrimitivesStayInPageOne : Prop :=
  ∀ (s : State) (v : Byte),
    (stackAddr s.sp).toNat = 256 + s.sp.toNat ∧
    (s.push v).read (stackAddr s.sp) = v ∧ SameMem [stackAddr s.sp] s (s.push v) ∧
    (s.push v).sp.toNat = (s.sp.toNat + 255) % 256 ∧
    s.pulled = s.read (stackAddr (s.sp + 1)) ∧ s.popped.sp.toNat = (s.sp.toNat + 1) % 256 ∧ s.popped.mem = s.mem ∧
    (s.push v).pulled = v ∧ (s.push v).popped.sp = s.sp

/-- R167, R168: PHA and PLA. PLA's Zero and Negative are the spec's decision D14 (log 12). -/
def Obligations.AccumulatorGoesToAndFromTheStack : Prop :=
  ImpliedForm .pha 0x48 3 [.SP] [] (fun s => [stackAddr s.sp])
    (fun s t => t.read (stackAddr s.sp) = s.a ∧ t.sp = s.sp - 1 ∧ PastOneByte s t) ∧
  ImpliedForm .pla 0x68 4 [.A, .SP] [.Z, .N] (fun _ => [])
    (fun s t => t.a = s.read (stackAddr (s.sp + 1)) ∧ t.sp = s.sp + 1 ∧ ZNFrom t.a t ∧ PastOneByte s t)

/-- R169, R170: PHP pushes the status with Break and Unused set and clears live Break; PLP pulls all eight flags and
forces Unused. That PHP clears live Break is the spec's decision D10, PHP_CLEARS_B (log 8). -/
def Obligations.StatusGoesToAndFromTheStack : Prop :=
  ImpliedForm .php 0x08 3 [.SP] [.B] (fun s => [stackAddr s.sp])
    (fun s t => t.read (stackAddr s.sp) = s.p ||| 0x30 ∧ t.sp = s.sp - 1 ∧ t.flag .B = false ∧ PastOneByte s t) ∧
  ImpliedForm .plp 0x28 4 [.SP] allFlags (fun _ => [])
    (fun s t => t.p = s.read (stackAddr (s.sp + 1)) ||| 0x20 ∧ t.sp = s.sp + 1 ∧ PastOneByte s t)

/-! ## Branches and jumps (47) -/

/-- R175 to R183: the eight branches. The pairing of condition and opcode byte is general knowledge (log 1). -/
def Obligations.BranchesFollowTheirFlag : Prop :=
  BranchForm .bcc 0x90 (fun s => !s.flag .C) ∧ BranchForm .bcs 0xB0 (fun s => s.flag .C) ∧
  BranchForm .beq 0xF0 (fun s => s.flag .Z) ∧ BranchForm .bne 0xD0 (fun s => !s.flag .Z) ∧
  BranchForm .bmi 0x30 (fun s => s.flag .N) ∧ BranchForm .bpl 0x10 (fun s => !s.flag .N) ∧
  BranchForm .bvc 0x50 (fun s => !s.flag .V) ∧ BranchForm .bvs 0x70 (fun s => s.flag .V)

/-- R184 with R89: JMP to its word, and through a pointer whose high byte is read in the pointer's own page. -/
def Obligations.JmpGoesToTheResolvedAddress : Prop :=
  EncodedAs .jmp [(.ABS, 0x4C, 3), (.IND, 0x6C, 5)] ∧
  (∀ w s, ∃ t, exec (.jmp (.abs w)) s = .next t ∧ t.pc = w ∧ Frame [] [] [] s t ∧ t.countdown = 3) ∧
  ∀ ptr s, ∃ t, exec (.jmp (.ind ptr)) s = .next t ∧
    t.pc.toNat = 256 * (s.read (if ptr.toNat % 256 = 255 then BitVec.ofNat 16 (ptr.toNat - 255) else ptr + 1)).toNat +
      (s.read ptr).toNat ∧
    Frame [] [] [] s t ∧ t.countdown = 5

/-- R185: JSR pushes the address of its own last byte, high byte first, and jumps. -/
def Obligations.JsrPushesItsLastByteAddress : Prop :=
  (∀ lo hi rest, decode (0x20 :: lo :: hi :: rest) = .ok (.jsr (joinBytes hi lo), rest)) ∧
  ∀ w s, ∃ t, exec (.jsr w) s = .next t ∧ t.pc = w ∧ t.sp = s.sp - 2 ∧
    t.read (stackAddr s.sp) = hi8 (s.pc + 2) ∧ t.read (stackAddr (s.sp - 1)) = lo8 (s.pc + 2) ∧
    Frame [.SP] [] [stackAddr s.sp, stackAddr (s.sp - 1)] s t ∧ t.countdown = 6

/-- R186: RTS pulls low byte then high byte and adds one. -/
def Obligations.RtsPullsAndAddsOne : Prop :=
  ImpliedForm .rts 0x60 6 [.SP] [] (fun _ => [])
    (fun s t =>
      t.pc.toNat = (256 * (s.read (stackAddr (s.sp + 2))).toNat + (s.read (stackAddr (s.sp + 1))).toNat + 1) % 65536 ∧
      t.sp = s.sp + 2)

/-- R185 and R186 together: RTS right after JSR returns to the instruction after it, with every register and flag as
before the call. -/
def Obligations.RtsUndoesJsr : Prop :=
  ∀ (w : Word) (s : State), ∃ t u, exec (.jsr w) s = .next t ∧ exec .rts t = .next u ∧ u.pc = s.pc + 3 ∧
    Frame [] [] [stackAddr s.sp, stackAddr (s.sp - 1)] s u

/-! ## Break, return, flags, no-ops (48) -/

/-- R195: BRK pushes its address plus 2 and the status with Break and Unused set, sets Interrupt-disable, and goes to
the handler at 0xFFFE. Address and copy are the spec's decisions D3, D7, D8 (log 4, log 6). -/
def Obligations.BrkEntersTheHandler : Prop :=
  ImpliedForm .brk 0x00 7 [.SP] [.I] frameBytes
    (fun s t =>
      t.read (stackAddr s.sp) = hi8 (s.pc + 2) ∧ t.read (stackAddr (s.sp - 1)) = lo8 (s.pc + 2) ∧
      t.read (stackAddr (s.sp - 2)) = s.p ||| 0x30 ∧ t.sp = s.sp - 3 ∧ t.flag .I = true ∧
      t.pc = joinBytes (s.read 0xFFFF) (s.read 0xFFFE))

/-- R196: RTI restores six flags, clears Break and Unused, and takes `pc` from the stack without adding to it. -/
def Obligations.RtiRestoresStatusAndPc : Prop :=
  ImpliedForm .rti 0x40 6 [.SP] allFlags (fun _ => [])
    (fun s t =>
      (∀ f, t.flag f = if f = .B ∨ f = .U then false else getFlag (s.read (stackAddr (s.sp + 1))) f) ∧
      t.pc = joinBytes (s.read (stackAddr (s.sp + 3))) (s.read (stackAddr (s.sp + 2))) ∧ t.sp = s.sp + 3)

/-- R197 to R203: the seven flag instructions write one flag and nothing else. -/
def Obligations.FlagInstructionsWriteOneFlag : Prop :=
  FlagForm .clc 0x18 2 .C false ∧ FlagForm .sec 0x38 2 .C true ∧
  FlagForm .cli 0x58 2 .I false ∧ FlagForm .sei 0x78 2 .I true ∧
  FlagForm .cld 0xD8 2 .D false ∧ FlagForm .sed 0xF8 2 .D true ∧
  FlagForm .clv 0xB8 2 .V false

/-- R204 to R206: NOP and the 105 undocumented bytes change nothing but `pc` and `countdown` (and scratch fields). Which
bytes have one and which three bytes (R68, R67), and their costs, are the spec's decision D6, UNDOC_TABLE (log 2). -/
def Obligations.NoOperationsOnlyAdvance : Prop :=
  ImpliedForm .nop 0xEA 2 [] [] (fun _ => []) PastOneByte ∧
  Config.undocImp = oneByteNoOps ∧ Config.undocAbx = [0x1C, 0x3C, 0x5C, 0x7C, 0xDC, 0xFC] ∧
  (∀ op ∈ oneByteNoOps, ImpliedForm (.undImp op) op 2 [] [] (fun _ => []) PastOneByte) ∧
  ∀ op ∈ ([0x1C, 0x3C, 0x5C, 0x7C, 0xDC, 0xFC] : List Byte),
    (∀ lo hi rest, decode (op :: lo :: hi :: rest) = .ok (.undAbx op (joinBytes hi lo), rest)) ∧
    ∀ w s, ∃ t, exec (.undAbx op w) s = .next t ∧ Frame [] [] [] s t ∧ t.pc = s.pc + 3 ∧
      t.countdown = if (w.toNat + s.x.toNat) % 65536 / 256 = w.toNat / 256 then 4 else 5

/-! ## Rules over all instructions -/

/-- R217: every instruction completes, at a cost of at least 2 and at most 7. -/
def Obligations.CostLiesBetweenTwoAndSeven : Prop :=
  ∀ (i : Instr) (s : State), i.wf = true → ∃ t, exec i s = .next t ∧ 2 ≤ t.countdown ∧ t.countdown ≤ 7

/-- R17: an instruction changes no flag that the table does not give it. -/
def Obligations.FlagsChangeOnlyAsTabled : Prop :=
  ∀ (i : Instr) (s t : State) (f : StatusFlag), exec i s = .next t → writesFlag f i = false → t.flag f = s.flag f

/-- R10: an instruction changes no register that the table does not give it. -/
def Obligations.RegistersChangeOnlyAsTabled : Prop :=
  ∀ (i : Instr) (s t : State) (r : Reg), exec i s = .next t → writesReg r i = false → t.reg r = s.reg r

/-- R53: an instruction changes no byte of memory but those the table lets it write. -/
def Obligations.MemoryChangesOnlyAsTabled : Prop :=
  ∀ (i : Instr) (s t : State), exec i s = .next t → SameMem (writtenAddresses i s) s t

/-! ## The step (49) -/

/-- R215, R216: at an instruction boundary a Clock, listed or not, runs the instruction that the bytes at `pc` decode
to, on the state with its opcode byte latched (log 18), and takes one from the cost it leaves. The list of inputs is the
model's own (log 15). -/
def Obligations.StepRunsTheDecodedInstruction : Prop :=
  ∀ (s t : State) (i : Instr) (tail : List Byte) (rest : List Input), s.countdown = 0 →
    (s.inputs = [] ∧ rest = [] ∨ s.inputs = .command .clock :: rest) →
    decode [s.read s.pc, s.read (s.pc + 1), s.read (s.pc + 2)] = .ok (i, tail) →
    exec i { s with opcode := s.read s.pc, inputs := rest } = .next t →
    i.wf = true ∧ step s = .next { t with countdown := t.countdown - 1 }

/-- The model's own convention (DESIGN CHOICE, log 15; host writes log 23): a step performs the oldest input listed on
the state without it, and is a Clock command when none is listed. -/
def Obligations.StepPerformsTheNextInput : Prop :=
  ∀ (s : State) (rest : List Input) (addr : Word) (v : Byte),
    (s.inputs = [] → step s = clockCommand s) ∧
    (s.inputs = .command .clock :: rest → step s = clockCommand { s with inputs := rest }) ∧
    (s.inputs = .command .reset :: rest → step s = .next (resetCommand { s with inputs := rest })) ∧
    (s.inputs = .command .irq :: rest → step s = .next (irqCommand { s with inputs := rest })) ∧
    (s.inputs = .command .nmi :: rest → step s = .next (nmiCommand { s with inputs := rest })) ∧
    (s.inputs = .hostWrite addr v :: rest →
      ∃ t, step s = .next t ∧ t.read addr = v ∧ SameMem [addr] s t ∧ { t with mem := s.mem, inputs := s.inputs } = s)

/-- R215: a Clock in the running state changes nothing but `countdown`; in the idle state it dispatches an instruction,
whose cost is at least 2, and leaves that cost minus one. -/
def Obligations.ClockDispatchesOrCountsDown : Prop :=
  ∀ s : State,
    (∀ k, s.countdown = k + 1 → clockCommand s = .next { s with countdown := k }) ∧
    (s.countdown = 0 → ∃ t, exec s.instrAt s.latchOpcode = .next t ∧ 2 ≤ t.countdown ∧
      clockCommand s = .next { t with countdown := t.countdown - 1 })

/-- R230: in every state, whatever the input and the bytes at `pc`, the step answers a next state. -/
def Obligations.MachineNeverStops : Prop := ∀ s : State, Safe s

/-- The invariant is kept by every step: the store stays in canonical form, which is the model's own (DESIGN CHOICE, log
16), and the countdown at most 8 (R22). -/
def Obligations.StepKeepsInvariant : Prop := ∀ s t : State, MachineInv s → step s = .next t → MachineInv t

/-- The reset state meets the invariant. The canonical form and the store that lists nothing are the model's own (DESIGN
CHOICE, log 16); the countdown is R25's. -/
def Obligations.ResetStateMeetsInvariant : Prop := MachineInv State.reset

/-- R220: from an idle state, the only one in which R219 defines Step (log 24), as many Clocks as the Step framing returns reach its state, and no fewer reach a zero
countdown; from a busy state, `countdown` Clocks change nothing else. -/
def Obligations.StepFramingAgreesWithClocks : Prop :=
  (∀ s : State, s.countdown = 0 → ∃ u n, stepWhole s = (.next u, n) ∧ u.countdown = 0 ∧ clocks n s = .next u ∧
    ∀ k, 0 < k → k < n → clocks k s = .next { u with countdown := n - k }) ∧
  ∀ s : State, clocks s.countdown s = .next { s with countdown := 0 }

/-! ## Commands (60, 70) -/

/-- R25: the state a Reset leaves, on a store that lists nothing (the model's reset state has such a store, log 16; the
vector's address is decision D3, log 4). -/
def Obligations.ResetStateHoldsTheResetValues : Prop :=
  State.reset.a = 0x00 ∧ State.reset.x = 0x00 ∧ State.reset.y = 0x00 ∧ State.reset.sp = 0xFD ∧
  (∀ f, State.reset.flag f = (f == .U)) ∧ State.reset.p = 0x20 ∧ State.reset.pc = State.reset.read16 0xFFFC ∧
  State.reset.opcode = 0 ∧ State.reset.addrAbs = 0 ∧ State.reset.addrRel = 0 ∧ State.reset.fetched = 0 ∧
  State.reset.countdown = 8

/-- R260, R261: Reset in any state whatever: every register, the scratch fields and `countdown` at their reset values,
`pc` from the vector (addresses decision D3, log 4; the vector is read by decision D4, log 5), the store unchanged. -/
def Obligations.ResetCommandReinitialises : Prop :=
  ∀ s : State, resetCommand s =
    { a := 0x00, x := 0x00, y := 0x00, sp := 0xFD, p := 0x20, pc := joinBytes (s.read 0xFFFD) (s.read 0xFFFC),
      opcode := 0, addrAbs := 0, addrRel := 0, fetched := 0, countdown := 8, mem := s.mem, inputs := s.inputs }

/-- R262: after a Reset eight Clocks only count down, and the ninth runs the instruction at the vector's target. -/
def Obligations.NinthClockAfterResetDispatches : Prop :=
  ∀ s : State,
    (∀ k, k ≤ 8 → clocks k (resetCommand s) = .next { resetCommand s with countdown := 8 - k }) ∧
    ∃ t, exec (decodeBytes (s.read (vectorWord s 0xFFFC)) (s.read (vectorWord s 0xFFFC + 1))
        (s.read (vectorWord s 0xFFFC + 2)))
        { resetCommand s with countdown := 0, opcode := s.read (vectorWord s 0xFFFC) } = .next t ∧
      clocks 9 (resetCommand s) = .next { t with countdown := t.countdown - 1 }

/-- R232 with R234: IRQ is dropped without trace when masked, else it enters through 0xFFFE and costs 7; whatever
`countdown` holds (decision D16, log 14). The live Break and Unused bits: decision D9, log 7. -/
def Obligations.IrqEntersUnlessMasked : Prop :=
  ∀ s : State, (s.flag .I = true → irqCommand s = s) ∧ (s.flag .I = false → EntersInterrupt 0xFFFE 7 s (irqCommand s))

/-- R233 with R234: NMI enters through 0xFFFA and costs 8, masked or not. The live Break and Unused bits: decision D9,
log 7. -/
def Obligations.NmiAlwaysEnters : Prop := ∀ s : State, EntersInterrupt 0xFFFA 8 s (nmiCommand s)

/-- R239: IRQ then NMI at one boundary: the NMI handler runs, its frame holds the IRQ handler's address and a status
with Interrupt-disable set, above it the IRQ's own frame. NMI then IRQ: the IRQ is dropped. -/
def Obligations.InterruptsTakeEffectInDriverOrder : Prop :=
  ∀ s : State,
    irqCommand (nmiCommand s) = nmiCommand s ∧
    (s.flag .I = false → ∃ t, t = nmiCommand (irqCommand s) ∧ t.pc = vectorWord s 0xFFFA ∧ t.countdown = 8 ∧
      t.sp = s.sp - 6 ∧
      joinBytes (t.read (stackAddr (s.sp - 3))) (t.read (stackAddr (s.sp - 4))) = vectorWord s 0xFFFE ∧
      getFlag (t.read (stackAddr (s.sp - 5))) .I = true ∧
      joinBytes (t.read (stackAddr s.sp)) (t.read (stackAddr (s.sp - 1))) = s.pc)

/-- R241: RTI right after an entry by IRQ, NMI or BRK resumes where the entry was taken, with every register and every
flag but Break and Unused as before it. -/
def Obligations.RtiResumesAfterEveryEntry : Prop :=
  ∀ s : State,
    (s.flag .I = false → ∃ u, exec .rti (irqCommand s) = .next u ∧ u.pc = s.pc ∧ Frame [] [.B, .U] (frameBytes s) s u) ∧
    (∃ u, exec .rti (nmiCommand s) = .next u ∧ u.pc = s.pc ∧ Frame [] [.B, .U] (frameBytes s) s u) ∧
    ∃ t u, exec .brk s = .next t ∧ exec .rti t = .next u ∧ u.pc = s.pc + 2 ∧ Frame [] [.B, .U] (frameBytes s) s u

/-- R235: the mask acts at once: an IRQ right after SEI is dropped, right after CLI taken, right after PLP or RTI as the
pulled bit says. -/
def Obligations.InterruptMaskActsAtOnce : Prop :=
  ∀ s : State,
    (∃ t, exec .sei s = .next t ∧ irqCommand t = t) ∧
    (∃ t, exec .cli s = .next t ∧ (irqCommand t).countdown = 7 ∧ (irqCommand t).pc = vectorWord s 0xFFFE) ∧
    ∀ i ∈ [Instr.plp, .rti], ∃ t, exec i s = .next t ∧
      (irqCommand t = t ↔ getFlag (s.read (stackAddr (s.sp + 1))) .I = true)

/-! ## What no program can see (10_state.md R20, R21) -/

/-- R21: the scratch fields carry no meaning between instructions: states that differ in them alone step to states
that differ in them alone. -/
def Obligations.ScratchFieldsAreInvisible : Prop :=
  ∀ s t s' : State, forgetScratch s = forgetScratch t → step s = .next s' →
    ∃ t', step t = .next t' ∧ forgetScratch s' = forgetScratch t'

/-- R20 (90_conflicts.md C2): no program can see live Break and Unused: states that differ in these two bits and the
scratch fields alone step to such states, with the same memory. -/
def Obligations.LiveBreakAndUnusedAreInvisible : Prop :=
  ∀ s t s' : State, forgetHidden s = forgetHidden t → step s = .next s' →
    ∃ t', step t = .next t' ∧ forgetHidden s' = forgetHidden t'

/-- R20: live Break becomes 1 only by a PLP whose pulled byte has bit 4 set. -/
def Obligations.BreakRisesOnlyByPlp : Prop :=
  ∀ s t : State, step s = .next t → s.flag .B = false → t.flag .B = true →
    Ready s ∧ s.instrAt = .plp ∧ (s.read (stackAddr (s.sp + 1))).getLsbD 4 = true

/-- R20: live Unused becomes 0 only by RTI, and 1 again only by PLP, IRQ or NMI, or by Reset. -/
def Obligations.UnusedFallsOnlyByRti : Prop :=
  ∀ s t : State, step s = .next t →
    (s.flag .U = true → t.flag .U = false → Ready s ∧ s.instrAt = .rti) ∧
    (s.flag .U = false → t.flag .U = true →
      (Ready s ∧ s.instrAt = .plp) ∨ ∃ c rest, s.inputs = .command c :: rest ∧ c ∈ [Command.irq, .nmi, .reset])

/-- R268: from a self-jump on, registers, flags, `pc` and memory no longer change under Clock commands, however many. -/
def Obligations.SelfJumpChangesNothingForEver : Prop :=
  ∀ (s : State) (n : Nat), s.countdown = 0 → AtSelfJump s →
    ∃ t, clocks n s = .next t ∧ t.pc = s.pc ∧ t.mem = s.mem ∧ SameRegs [] s t ∧ SameFlags [] s t

/-! ## The status register (10_state.md R16) -/

/-- R16: which bit of a status byte each flag is, read and written, and that writing one flag leaves the other seven.
The bit numbers are the spec's decision D2 (log 3). -/
def Obligations.FlagsStandAtTheirBits : Prop :=
  (∀ p : Byte,
    getFlag p .C = p.getLsbD 0 ∧ getFlag p .Z = p.getLsbD 1 ∧ getFlag p .I = p.getLsbD 2 ∧
    getFlag p .D = p.getLsbD 3 ∧ getFlag p .B = p.getLsbD 4 ∧ getFlag p .U = p.getLsbD 5 ∧
    getFlag p .V = p.getLsbD 6 ∧ getFlag p .N = p.getLsbD 7) ∧
  (flagMask .C = 0x01 ∧ flagMask .Z = 0x02 ∧ flagMask .I = 0x04 ∧ flagMask .D = 0x08 ∧
    flagMask .B = 0x10 ∧ flagMask .U = 0x20 ∧ flagMask .V = 0x40 ∧ flagMask .N = 0x80) ∧
  ∀ (s : State) (f g : StatusFlag) (b : Bool),
    s.flag f = getFlag s.p f ∧ (s.setFlag f b).flag g = if g = f then b else s.flag g
end

