-- ==== Sys2Proof/Laws/State.lean ====
section
/-! SUPPORT. One lemma per field per update of the state, each true by unfolding, so that no proof unfolds a record
update; and what the observers `reg`, `flag` and `read` see of each update. -/

namespace Sys2Proof.Machine

open Sys2Proof

/-! ### setPc -/

@[simp] theorem State.setPc_a (s : State) (w : Word) : (s.setPc w).a = s.a := rfl
@[simp] theorem State.setPc_x (s : State) (w : Word) : (s.setPc w).x = s.x := rfl
@[simp] theorem State.setPc_y (s : State) (w : Word) : (s.setPc w).y = s.y := rfl
@[simp] theorem State.setPc_sp (s : State) (w : Word) : (s.setPc w).sp = s.sp := rfl
@[simp] theorem State.setPc_pc (s : State) (w : Word) : (s.setPc w).pc = w := rfl
@[simp] theorem State.setPc_p (s : State) (w : Word) : (s.setPc w).p = s.p := rfl
@[simp] theorem State.setPc_countdown (s : State) (w : Word) : (s.setPc w).countdown = s.countdown := rfl
@[simp] theorem State.setPc_opcode (s : State) (w : Word) : (s.setPc w).opcode = s.opcode := rfl
@[simp] theorem State.setPc_addrAbs (s : State) (w : Word) : (s.setPc w).addrAbs = s.addrAbs := rfl
@[simp] theorem State.setPc_addrRel (s : State) (w : Word) : (s.setPc w).addrRel = s.addrRel := rfl
@[simp] theorem State.setPc_fetched (s : State) (w : Word) : (s.setPc w).fetched = s.fetched := rfl
@[simp] theorem State.setPc_mem (s : State) (w : Word) : (s.setPc w).mem = s.mem := rfl
@[simp] theorem State.setPc_inputs (s : State) (w : Word) : (s.setPc w).inputs = s.inputs := rfl

/-! ### setStatus -/

@[simp] theorem State.setStatus_a (s : State) (v : Byte) : (s.setStatus v).a = s.a := rfl
@[simp] theorem State.setStatus_x (s : State) (v : Byte) : (s.setStatus v).x = s.x := rfl
@[simp] theorem State.setStatus_y (s : State) (v : Byte) : (s.setStatus v).y = s.y := rfl
@[simp] theorem State.setStatus_sp (s : State) (v : Byte) : (s.setStatus v).sp = s.sp := rfl
@[simp] theorem State.setStatus_pc (s : State) (v : Byte) : (s.setStatus v).pc = s.pc := rfl
@[simp] theorem State.setStatus_p (s : State) (v : Byte) : (s.setStatus v).p = v := rfl
@[simp] theorem State.setStatus_countdown (s : State) (v : Byte) : (s.setStatus v).countdown = s.countdown := rfl
@[simp] theorem State.setStatus_opcode (s : State) (v : Byte) : (s.setStatus v).opcode = s.opcode := rfl
@[simp] theorem State.setStatus_addrAbs (s : State) (v : Byte) : (s.setStatus v).addrAbs = s.addrAbs := rfl
@[simp] theorem State.setStatus_addrRel (s : State) (v : Byte) : (s.setStatus v).addrRel = s.addrRel := rfl
@[simp] theorem State.setStatus_fetched (s : State) (v : Byte) : (s.setStatus v).fetched = s.fetched := rfl
@[simp] theorem State.setStatus_mem (s : State) (v : Byte) : (s.setStatus v).mem = s.mem := rfl
@[simp] theorem State.setStatus_inputs (s : State) (v : Byte) : (s.setStatus v).inputs = s.inputs := rfl

/-! ### setFlag -/

@[simp] theorem State.setFlag_a (s : State) (f : StatusFlag) (b : Bool) : (s.setFlag f b).a = s.a := rfl
@[simp] theorem State.setFlag_x (s : State) (f : StatusFlag) (b : Bool) : (s.setFlag f b).x = s.x := rfl
@[simp] theorem State.setFlag_y (s : State) (f : StatusFlag) (b : Bool) : (s.setFlag f b).y = s.y := rfl
@[simp] theorem State.setFlag_sp (s : State) (f : StatusFlag) (b : Bool) : (s.setFlag f b).sp = s.sp := rfl
@[simp] theorem State.setFlag_pc (s : State) (f : StatusFlag) (b : Bool) : (s.setFlag f b).pc = s.pc := rfl
@[simp] theorem State.setFlag_p (s : State) (f : StatusFlag) (b : Bool) : (s.setFlag f b).p = putFlag s.p f b := rfl
@[simp] theorem State.setFlag_countdown (s : State) (f : StatusFlag) (b : Bool) : (s.setFlag f b).countdown = s.countdown := rfl
@[simp] theorem State.setFlag_opcode (s : State) (f : StatusFlag) (b : Bool) : (s.setFlag f b).opcode = s.opcode := rfl
@[simp] theorem State.setFlag_addrAbs (s : State) (f : StatusFlag) (b : Bool) : (s.setFlag f b).addrAbs = s.addrAbs := rfl
@[simp] theorem State.setFlag_addrRel (s : State) (f : StatusFlag) (b : Bool) : (s.setFlag f b).addrRel = s.addrRel := rfl
@[simp] theorem State.setFlag_fetched (s : State) (f : StatusFlag) (b : Bool) : (s.setFlag f b).fetched = s.fetched := rfl
@[simp] theorem State.setFlag_mem (s : State) (f : StatusFlag) (b : Bool) : (s.setFlag f b).mem = s.mem := rfl
@[simp] theorem State.setFlag_inputs (s : State) (f : StatusFlag) (b : Bool) : (s.setFlag f b).inputs = s.inputs := rfl

/-! ### charge -/

@[simp] theorem State.charge_a (s : State) (n : Nat) : (s.charge n).a = s.a := rfl
@[simp] theorem State.charge_x (s : State) (n : Nat) : (s.charge n).x = s.x := rfl
@[simp] theorem State.charge_y (s : State) (n : Nat) : (s.charge n).y = s.y := rfl
@[simp] theorem State.charge_sp (s : State) (n : Nat) : (s.charge n).sp = s.sp := rfl
@[simp] theorem State.charge_pc (s : State) (n : Nat) : (s.charge n).pc = s.pc := rfl
@[simp] theorem State.charge_p (s : State) (n : Nat) : (s.charge n).p = s.p := rfl
@[simp] theorem State.charge_countdown (s : State) (n : Nat) : (s.charge n).countdown = n := rfl
@[simp] theorem State.charge_opcode (s : State) (n : Nat) : (s.charge n).opcode = s.opcode := rfl
@[simp] theorem State.charge_addrAbs (s : State) (n : Nat) : (s.charge n).addrAbs = s.addrAbs := rfl
@[simp] theorem State.charge_addrRel (s : State) (n : Nat) : (s.charge n).addrRel = s.addrRel := rfl
@[simp] theorem State.charge_fetched (s : State) (n : Nat) : (s.charge n).fetched = s.fetched := rfl
@[simp] theorem State.charge_mem (s : State) (n : Nat) : (s.charge n).mem = s.mem := rfl
@[simp] theorem State.charge_inputs (s : State) (n : Nat) : (s.charge n).inputs = s.inputs := rfl

/-! ### setInputs -/

@[simp] theorem State.setInputs_a (s : State) (is : List Input) : (s.setInputs is).a = s.a := rfl
@[simp] theorem State.setInputs_x (s : State) (is : List Input) : (s.setInputs is).x = s.x := rfl
@[simp] theorem State.setInputs_y (s : State) (is : List Input) : (s.setInputs is).y = s.y := rfl
@[simp] theorem State.setInputs_sp (s : State) (is : List Input) : (s.setInputs is).sp = s.sp := rfl
@[simp] theorem State.setInputs_pc (s : State) (is : List Input) : (s.setInputs is).pc = s.pc := rfl
@[simp] theorem State.setInputs_p (s : State) (is : List Input) : (s.setInputs is).p = s.p := rfl
@[simp] theorem State.setInputs_countdown (s : State) (is : List Input) : (s.setInputs is).countdown = s.countdown := rfl
@[simp] theorem State.setInputs_opcode (s : State) (is : List Input) : (s.setInputs is).opcode = s.opcode := rfl
@[simp] theorem State.setInputs_addrAbs (s : State) (is : List Input) : (s.setInputs is).addrAbs = s.addrAbs := rfl
@[simp] theorem State.setInputs_addrRel (s : State) (is : List Input) : (s.setInputs is).addrRel = s.addrRel := rfl
@[simp] theorem State.setInputs_fetched (s : State) (is : List Input) : (s.setInputs is).fetched = s.fetched := rfl
@[simp] theorem State.setInputs_mem (s : State) (is : List Input) : (s.setInputs is).mem = s.mem := rfl
@[simp] theorem State.setInputs_inputs (s : State) (is : List Input) : (s.setInputs is).inputs = is := rfl

/-! ### write -/

@[simp] theorem State.write_a (s : State) (a : Word) (v : Byte) : (s.write a v).a = s.a := rfl
@[simp] theorem State.write_x (s : State) (a : Word) (v : Byte) : (s.write a v).x = s.x := rfl
@[simp] theorem State.write_y (s : State) (a : Word) (v : Byte) : (s.write a v).y = s.y := rfl
@[simp] theorem State.write_sp (s : State) (a : Word) (v : Byte) : (s.write a v).sp = s.sp := rfl
@[simp] theorem State.write_pc (s : State) (a : Word) (v : Byte) : (s.write a v).pc = s.pc := rfl
@[simp] theorem State.write_p (s : State) (a : Word) (v : Byte) : (s.write a v).p = s.p := rfl
@[simp] theorem State.write_countdown (s : State) (a : Word) (v : Byte) : (s.write a v).countdown = s.countdown := rfl
@[simp] theorem State.write_opcode (s : State) (a : Word) (v : Byte) : (s.write a v).opcode = s.opcode := rfl
@[simp] theorem State.write_addrAbs (s : State) (a : Word) (v : Byte) : (s.write a v).addrAbs = s.addrAbs := rfl
@[simp] theorem State.write_addrRel (s : State) (a : Word) (v : Byte) : (s.write a v).addrRel = s.addrRel := rfl
@[simp] theorem State.write_fetched (s : State) (a : Word) (v : Byte) : (s.write a v).fetched = s.fetched := rfl
@[simp] theorem State.write_mem (s : State) (a : Word) (v : Byte) : (s.write a v).mem = s.mem.put a.toNat v := rfl
@[simp] theorem State.write_inputs (s : State) (a : Word) (v : Byte) : (s.write a v).inputs = s.inputs := rfl

/-! ### latchOpcode -/

@[simp] theorem State.latchOpcode_a (s : State) : (s.latchOpcode).a = s.a := rfl
@[simp] theorem State.latchOpcode_x (s : State) : (s.latchOpcode).x = s.x := rfl
@[simp] theorem State.latchOpcode_y (s : State) : (s.latchOpcode).y = s.y := rfl
@[simp] theorem State.latchOpcode_sp (s : State) : (s.latchOpcode).sp = s.sp := rfl
@[simp] theorem State.latchOpcode_pc (s : State) : (s.latchOpcode).pc = s.pc := rfl
@[simp] theorem State.latchOpcode_p (s : State) : (s.latchOpcode).p = s.p := rfl
@[simp] theorem State.latchOpcode_countdown (s : State) : (s.latchOpcode).countdown = s.countdown := rfl
@[simp] theorem State.latchOpcode_opcode (s : State) : (s.latchOpcode).opcode = s.read s.pc := rfl
@[simp] theorem State.latchOpcode_addrAbs (s : State) : (s.latchOpcode).addrAbs = s.addrAbs := rfl
@[simp] theorem State.latchOpcode_addrRel (s : State) : (s.latchOpcode).addrRel = s.addrRel := rfl
@[simp] theorem State.latchOpcode_fetched (s : State) : (s.latchOpcode).fetched = s.fetched := rfl
@[simp] theorem State.latchOpcode_mem (s : State) : (s.latchOpcode).mem = s.mem := rfl
@[simp] theorem State.latchOpcode_inputs (s : State) : (s.latchOpcode).inputs = s.inputs := rfl

/-! ### tickEnd -/

@[simp] theorem State.tickEnd_a (s : State) : (s.tickEnd).a = s.a := rfl
@[simp] theorem State.tickEnd_x (s : State) : (s.tickEnd).x = s.x := rfl
@[simp] theorem State.tickEnd_y (s : State) : (s.tickEnd).y = s.y := rfl
@[simp] theorem State.tickEnd_sp (s : State) : (s.tickEnd).sp = s.sp := rfl
@[simp] theorem State.tickEnd_pc (s : State) : (s.tickEnd).pc = s.pc := rfl
@[simp] theorem State.tickEnd_p (s : State) : (s.tickEnd).p = s.p := rfl
@[simp] theorem State.tickEnd_countdown (s : State) : (s.tickEnd).countdown = s.countdown - 1 := rfl
@[simp] theorem State.tickEnd_opcode (s : State) : (s.tickEnd).opcode = s.opcode := rfl
@[simp] theorem State.tickEnd_addrAbs (s : State) : (s.tickEnd).addrAbs = s.addrAbs := rfl
@[simp] theorem State.tickEnd_addrRel (s : State) : (s.tickEnd).addrRel = s.addrRel := rfl
@[simp] theorem State.tickEnd_fetched (s : State) : (s.tickEnd).fetched = s.fetched := rfl
@[simp] theorem State.tickEnd_mem (s : State) : (s.tickEnd).mem = s.mem := rfl
@[simp] theorem State.tickEnd_inputs (s : State) : (s.tickEnd).inputs = s.inputs := rfl

/-! ### setReg -/

@[simp] theorem State.setReg_a (s : State) (r : Reg) (v : Byte) : (s.setReg r v).a = if r = .A then v else s.a := by
  cases r <;> rfl
@[simp] theorem State.setReg_x (s : State) (r : Reg) (v : Byte) : (s.setReg r v).x = if r = .X then v else s.x := by
  cases r <;> rfl
@[simp] theorem State.setReg_y (s : State) (r : Reg) (v : Byte) : (s.setReg r v).y = if r = .Y then v else s.y := by
  cases r <;> rfl
@[simp] theorem State.setReg_sp (s : State) (r : Reg) (v : Byte) : (s.setReg r v).sp = if r = .SP then v else s.sp := by
  cases r <;> rfl
@[simp] theorem State.setReg_pc (s : State) (r : Reg) (v : Byte) : (s.setReg r v).pc = s.pc := by cases r <;> rfl
@[simp] theorem State.setReg_p (s : State) (r : Reg) (v : Byte) : (s.setReg r v).p = s.p := by cases r <;> rfl
@[simp] theorem State.setReg_countdown (s : State) (r : Reg) (v : Byte) : (s.setReg r v).countdown = s.countdown := by cases r <;> rfl
@[simp] theorem State.setReg_opcode (s : State) (r : Reg) (v : Byte) : (s.setReg r v).opcode = s.opcode := by cases r <;> rfl
@[simp] theorem State.setReg_addrAbs (s : State) (r : Reg) (v : Byte) : (s.setReg r v).addrAbs = s.addrAbs := by cases r <;> rfl
@[simp] theorem State.setReg_addrRel (s : State) (r : Reg) (v : Byte) : (s.setReg r v).addrRel = s.addrRel := by cases r <;> rfl
@[simp] theorem State.setReg_fetched (s : State) (r : Reg) (v : Byte) : (s.setReg r v).fetched = s.fetched := by cases r <;> rfl
@[simp] theorem State.setReg_mem (s : State) (r : Reg) (v : Byte) : (s.setReg r v).mem = s.mem := by cases r <;> rfl
@[simp] theorem State.setReg_inputs (s : State) (r : Reg) (v : Byte) : (s.setReg r v).inputs = s.inputs := by cases r <;> rfl

/-! ### Observers -/

@[simp] theorem State.reg_A (s : State) : s.reg .A = s.a := rfl
@[simp] theorem State.reg_X (s : State) : s.reg .X = s.x := rfl
@[simp] theorem State.reg_Y (s : State) : s.reg .Y = s.y := rfl
@[simp] theorem State.reg_SP (s : State) : s.reg .SP = s.sp := rfl

@[simp] theorem State.setReg_reg (s : State) (r q : Reg) (v : Byte) :
    (s.setReg r v).reg q = if q = r then v else s.reg q := by
  cases r <;> cases q <;> rfl

@[simp] theorem State.setReg_flag (s : State) (r : Reg) (v : Byte) (f : StatusFlag) : (s.setReg r v).flag f = s.flag f := by
  cases r <;> rfl

@[simp] theorem State.setReg_read (s : State) (r : Reg) (v : Byte) (a : Word) : (s.setReg r v).read a = s.read a := by
  cases r <;> rfl

@[simp] theorem State.setPc_reg (s : State) (w : Word) (r : Reg) : (s.setPc w).reg r = s.reg r := by cases r <;> rfl
@[simp] theorem State.setPc_flag (s : State) (w : Word) (f : StatusFlag) : (s.setPc w).flag f = s.flag f := rfl
@[simp] theorem State.setPc_read (s : State) (w' : Word) (w : Word) : (s.setPc w').read w = s.read w := rfl
@[simp] theorem State.setStatus_reg (s : State) (v : Byte) (r : Reg) : (s.setStatus v).reg r = s.reg r := by cases r <;> rfl
@[simp] theorem State.setStatus_read (s : State) (v : Byte) (w : Word) : (s.setStatus v).read w = s.read w := rfl
@[simp] theorem State.setFlag_reg (s : State) (f : StatusFlag) (b : Bool) (r : Reg) : (s.setFlag f b).reg r = s.reg r := by cases r <;> rfl
@[simp] theorem State.setFlag_read (s : State) (f : StatusFlag) (b : Bool) (w : Word) : (s.setFlag f b).read w = s.read w := rfl
@[simp] theorem State.charge_reg (s : State) (n : Nat) (r : Reg) : (s.charge n).reg r = s.reg r := by cases r <;> rfl
@[simp] theorem State.charge_flag (s : State) (n : Nat) (f : StatusFlag) : (s.charge n).flag f = s.flag f := rfl
@[simp] theorem State.charge_read (s : State) (n : Nat) (w : Word) : (s.charge n).read w = s.read w := rfl
@[simp] theorem State.setInputs_reg (s : State) (is : List Input) (r : Reg) : (s.setInputs is).reg r = s.reg r := by cases r <;> rfl
@[simp] theorem State.setInputs_flag (s : State) (is : List Input) (f : StatusFlag) : (s.setInputs is).flag f = s.flag f := rfl
@[simp] theorem State.setInputs_read (s : State) (is : List Input) (w : Word) : (s.setInputs is).read w = s.read w := rfl
@[simp] theorem State.write_reg (s : State) (a : Word) (v : Byte) (r : Reg) : (s.write a v).reg r = s.reg r := by cases r <;> rfl
@[simp] theorem State.write_flag (s : State) (a : Word) (v : Byte) (f : StatusFlag) : (s.write a v).flag f = s.flag f := rfl
@[simp] theorem State.latchOpcode_reg (s : State) (r : Reg) : (s.latchOpcode).reg r = s.reg r := by cases r <;> rfl
@[simp] theorem State.latchOpcode_flag (s : State) (f : StatusFlag) : (s.latchOpcode).flag f = s.flag f := rfl
@[simp] theorem State.latchOpcode_read (s : State) (w : Word) : (s.latchOpcode).read w = s.read w := rfl
@[simp] theorem State.tickEnd_reg (s : State) (r : Reg) : (s.tickEnd).reg r = s.reg r := by cases r <;> rfl
@[simp] theorem State.tickEnd_flag (s : State) (f : StatusFlag) : (s.tickEnd).flag f = s.flag f := rfl
@[simp] theorem State.tickEnd_read (s : State) (w : Word) : (s.tickEnd).read w = s.read w := rfl
@[simp] theorem State.setStatus_flag (s : State) (v : Byte) (f : StatusFlag) : (s.setStatus v).flag f = getFlag v f := rfl

end Sys2Proof.Machine
end

