-- ==== Sys2Proof/Laws/Memory.lean ====
section
/-! SUPPORT. The store: what a read sees after a write, and that every operation keeps the canonical form. -/

namespace Sys2Proof.Machine

open Sys2Proof

theorem Memory.get_insertCell_same (m : Memory) (k : Nat) (v : Byte) (h : ∀ c ∈ m, c.1 ≠ k) :
    Memory.get (Memory.insertCell m k v) k = v := by
  induction m with
  | nil => simp [Memory.insertCell, Memory.get]
  | cons c m ih =>
    have hc := h c (by simp)
    have ih := ih (fun d hd => h d (by simp [hd]))
    by_cases hk : k < c.1 <;> simp [Memory.insertCell, Memory.get, hk, hc, ih]

theorem Memory.get_insertCell_other (m : Memory) (k j : Nat) (v : Byte) (h : j ≠ k) :
    Memory.get (Memory.insertCell m k v) j = Memory.get m j := by
  induction m with
  | nil => simp [Memory.insertCell, Memory.get, h.symm]
  | cons c m ih =>
    by_cases hk : k < c.1 <;> simp [Memory.insertCell, Memory.get, hk, h.symm, ih]

theorem Memory.get_filter_same (m : Memory) (k : Nat) :
    Memory.get (m.filter (fun c => c.1 != k)) k = Config.unwrittenByte := by
  induction m with
  | nil => rfl
  | cons c m ih => by_cases hc : c.1 = k <;> simp [Memory.get, hc, ih]

theorem Memory.get_filter_other (m : Memory) (k j : Nat) (h : j ≠ k) :
    Memory.get (m.filter (fun c => c.1 != k)) j = Memory.get m j := by
  induction m with
  | nil => rfl
  | cons c m ih =>
    by_cases hc : c.1 = k
    · simp [Memory.get, hc, h.symm, ih]
    · simp [Memory.get, hc, ih]

/-- A read of the byte just written gives it, in any list of cells. -/
theorem Memory.get_put_same (m : Memory) (k : Nat) (v : Byte) : Memory.get (Memory.put m k v) k = v := by
  by_cases hv : v = Config.unwrittenByte
  · simp [Memory.put, hv, Memory.get_filter_same]
  · simp only [Memory.put, hv, if_false]
    exact Memory.get_insertCell_same _ _ _ (fun c hc => by simpa using (List.mem_filter.mp hc).2)

/-- A write leaves every other address alone. -/
theorem Memory.get_put_other (m : Memory) (k j : Nat) (v : Byte) (h : j ≠ k) :
    Memory.get (Memory.put m k v) j = Memory.get m j := by
  by_cases hv : v = Config.unwrittenByte
  · simp [Memory.put, hv, Memory.get_filter_other _ _ _ h]
  · simp [Memory.put, hv, Memory.get_insertCell_other _ _ _ _ h, Memory.get_filter_other _ _ _ h]

/-! ### The canonical form -/

theorem Memory.mem_insertCell {m : Memory} {k : Nat} {v : Byte} {c : Host.Cell} :
    c ∈ Memory.insertCell m k v ↔ c = (k, v) ∨ c ∈ m := by
  induction m with
  | nil => simp [Memory.insertCell]
  | cons d m ih =>
    by_cases hk : k < d.1
    · simp [Memory.insertCell, hk]
    · simp only [Memory.insertCell, hk, if_false, List.mem_cons, ih]
      tauto

theorem Memory.pairwise_insertCell {m : Memory} {k : Nat} {v : Byte}
    (h : m.Pairwise (fun c d => c.1 < d.1)) (hk : ∀ c ∈ m, c.1 ≠ k) :
    (Memory.insertCell m k v).Pairwise (fun c d => c.1 < d.1) := by
  induction m with
  | nil => simp [Memory.insertCell]
  | cons d m ih =>
    obtain ⟨hd, hm⟩ := List.pairwise_cons.mp h
    have hne := hk d (by simp)
    by_cases hlt : k < d.1
    · simp only [Memory.insertCell, hlt, if_true]
      refine List.pairwise_cons.mpr ⟨fun c hc => ?_, h⟩
      rcases List.mem_cons.mp hc with rfl | hc
      · exact hlt
      · exact lt_trans hlt (hd c hc)
    · simp only [Memory.insertCell, hlt, if_false]
      refine List.pairwise_cons.mpr ⟨fun c hc => ?_, ih hm (fun c hc => hk c (by simp [hc]))⟩
      rcases Memory.mem_insertCell.mp hc with rfl | hc
      · show d.1 < k
        omega
      · exact hd c hc

/-- A write of a byte at an address of the space keeps the canonical form. -/
theorem Memory.wf_put {m : Memory} {k : Nat} (v : Byte) (h : m.wf) (hk : k < 65536) : (Memory.put m k v).wf := by
  obtain ⟨hp, hc⟩ := h
  have hp' := hp.filter (fun c : Host.Cell => c.1 != k)
  have hc' : ∀ c ∈ m.filter (fun c => c.1 != k), c.1 < 65536 ∧ c.2 ≠ Config.unwrittenByte :=
    fun c h => hc c (List.mem_filter.mp h).1
  by_cases hv : v = Config.unwrittenByte
  · simpa [Memory.put, hv] using ⟨hp', hc'⟩
  · simp only [Memory.put, hv, if_false]
    refine ⟨Memory.pairwise_insertCell hp' (fun c hc => by simpa using (List.mem_filter.mp hc).2), fun c h => ?_⟩
    rcases Memory.mem_insertCell.mp h with rfl | h
    · exact ⟨hk, hv⟩
    · exact hc' c h

/-! ### The bus port -/

@[simp] theorem State.write_read (s : State) (a b : Word) (v : Byte) :
    (s.write a v).read b = if b = a then v else s.read b := by
  by_cases h : b = a
  · subst h; simp [State.read, State.write, Memory.get_put_same]
  · have : b.toNat ≠ a.toNat := fun e => h (BitVec.eq_of_toNat_eq e)
    simp [State.read, State.write, Memory.get_put_other _ _ _ _ this, h]

theorem State.write_wf {s : State} (a : Word) (v : Byte) (h : s.mem.wf) : (s.write a v).mem.wf :=
  Memory.wf_put v h a.isLt

theorem State.writeBytes_wf {s : State} (a : Word) (vs : List Byte) (h : s.mem.wf) : (s.writeBytes a vs).mem.wf := by
  induction vs generalizing s a with
  | nil => exact h
  | cons v vs ih => exact ih (a + 1) (State.write_wf a v h)

end Sys2Proof.Machine
end

