-- ==== Sys2Proof/Laws/Flags.lean ====
section
/-! SUPPORT. The status register by flag: what each flag is after each flag computation. -/

namespace Sys2Proof.Machine

open Sys2Proof

@[simp] theorem getFlag_putFlag (p : Byte) (f g : StatusFlag) (b : Bool) :
    getFlag (putFlag p f b) g = if g = f then b else getFlag p g := by
  revert p b
  cases f <;> cases g <;> decide

/-- A status byte is its eight flags (R14). -/
theorem eq_of_getFlag {p q : Byte} (h : ∀ f, getFlag p f = getFlag q f) : p = q := by
  refine BitVec.eq_of_getLsbD_eq fun i hi => ?_
  have hC := h .C; have hZ := h .Z; have hI := h .I; have hD := h .D
  have hB := h .B; have hU := h .U; have hV := h .V; have hN := h .N
  simp only [getFlag, Config.flagBit] at hC hZ hI hD hB hU hV hN
  interval_cases i <;> assumption

@[simp] theorem State.setFlag_flag (s : State) (f g : StatusFlag) (b : Bool) :
    (s.setFlag f b).flag g = if g = f then b else s.flag g := getFlag_putFlag s.p f g b

@[simp] theorem getFlag_pushedCopy (p : Byte) (f : StatusFlag) :
    getFlag (pushedCopy p) f = if f = .B ∨ f = .U then true else getFlag p f := by
  revert p; cases f <;> decide

@[simp] theorem getFlag_plpStatus (v : Byte) (f : StatusFlag) :
    getFlag (plpStatus v) f = if f = .U then true else getFlag v f := by
  revert v; cases f <;> decide

@[simp] theorem getFlag_interruptStatus (p : Byte) (f : StatusFlag) :
    getFlag (interruptStatus p) f = if f = .U then true else if f = .B then false else getFlag p f := by
  simp [interruptStatus]

@[simp] theorem getFlag_rtiStatus (v : Byte) (f : StatusFlag) :
    getFlag (rtiStatus v) f = if f = .U ∨ f = .B then false else getFlag v f := by
  cases f <;> simp [rtiStatus]

/-- `SetZN` writes Zero and Negative and nothing else (R18). -/
@[simp] theorem State.setZN_flag (s : State) (v : Byte) (f : StatusFlag) :
    (s.setZN v).flag f = if f = .N then v.getLsbD 7 else if f = .Z then v == 0 else s.flag f := by
  simp [State.setZN]

@[simp] theorem State.setZN_a (s : State) (v : Byte) : (s.setZN v).a = s.a := rfl
@[simp] theorem State.setZN_x (s : State) (v : Byte) : (s.setZN v).x = s.x := rfl
@[simp] theorem State.setZN_y (s : State) (v : Byte) : (s.setZN v).y = s.y := rfl
@[simp] theorem State.setZN_sp (s : State) (v : Byte) : (s.setZN v).sp = s.sp := rfl
@[simp] theorem State.setZN_reg (s : State) (v : Byte) (r : Reg) : (s.setZN v).reg r = s.reg r := by simp [State.setZN]
@[simp] theorem State.setZN_read (s : State) (v : Byte) (a : Word) : (s.setZN v).read a = s.read a := rfl
@[simp] theorem State.setZN_mem (s : State) (v : Byte) : (s.setZN v).mem = s.mem := rfl
@[simp] theorem State.setZN_pc (s : State) (v : Byte) : (s.setZN v).pc = s.pc := rfl
@[simp] theorem State.setZN_inputs (s : State) (v : Byte) : (s.setZN v).inputs = s.inputs := rfl
@[simp] theorem State.setZN_countdown (s : State) (v : Byte) : (s.setZN v).countdown = s.countdown := rfl

@[simp] theorem State.setAddFlags_flag (s : State) (a v : Byte) (t : Word) (f : StatusFlag) :
    (s.setAddFlags a v t).flag f =
      match f with
      | .C => decide (255 < t.toNat)
      | .Z => lo8 t == 0
      | .V => addOverflow a v (lo8 t)
      | .N => t.getLsbD 7
      | g => s.flag g := by
  cases f <;> simp [State.setAddFlags]

@[simp] theorem State.setAddFlags_a (s : State) (a v : Byte) (t : Word) : (s.setAddFlags a v t).a = s.a := rfl
@[simp] theorem State.setAddFlags_x (s : State) (a v : Byte) (t : Word) : (s.setAddFlags a v t).x = s.x := rfl
@[simp] theorem State.setAddFlags_y (s : State) (a v : Byte) (t : Word) : (s.setAddFlags a v t).y = s.y := rfl
@[simp] theorem State.setAddFlags_sp (s : State) (a v : Byte) (t : Word) : (s.setAddFlags a v t).sp = s.sp := rfl
@[simp] theorem State.setAddFlags_reg (s : State) (a v : Byte) (t : Word) (r : Reg) :
    (s.setAddFlags a v t).reg r = s.reg r := by
  simp [State.setAddFlags]

@[simp] theorem State.setAddFlags_mem (s : State) (a v : Byte) (t : Word) : (s.setAddFlags a v t).mem = s.mem := rfl
@[simp] theorem State.setAddFlags_read (s : State) (a v : Byte) (t : Word) (w : Word) :
    (s.setAddFlags a v t).read w = s.read w := rfl
@[simp] theorem State.setAddFlags_pc (s : State) (a v : Byte) (t : Word) : (s.setAddFlags a v t).pc = s.pc := rfl
@[simp] theorem State.setAddFlags_inputs (s : State) (a v : Byte) (t : Word) :
    (s.setAddFlags a v t).inputs = s.inputs := rfl

@[simp] theorem State.setCompareFlags_flag (s : State) (r m : Byte) (f : StatusFlag) :
    (s.setCompareFlags r m).flag f =
      match f with
      | .C => decide (m.toNat ≤ r.toNat)
      | .Z => lo8 (compareWide r m) == 0
      | .N => (compareWide r m).getLsbD 7
      | g => s.flag g := by
  cases f <;> simp [State.setCompareFlags]

@[simp] theorem State.setCompareFlags_a (s : State) (r m : Byte) : (s.setCompareFlags r m).a = s.a := rfl
@[simp] theorem State.setCompareFlags_x (s : State) (r m : Byte) : (s.setCompareFlags r m).x = s.x := rfl
@[simp] theorem State.setCompareFlags_y (s : State) (r m : Byte) : (s.setCompareFlags r m).y = s.y := rfl
@[simp] theorem State.setCompareFlags_sp (s : State) (r m : Byte) : (s.setCompareFlags r m).sp = s.sp := rfl
@[simp] theorem State.setCompareFlags_reg (s : State) (r m : Byte) (q : Reg) :
    (s.setCompareFlags r m).reg q = s.reg q := by
  simp [State.setCompareFlags]

@[simp] theorem State.setCompareFlags_mem (s : State) (r m : Byte) : (s.setCompareFlags r m).mem = s.mem := rfl
@[simp] theorem State.setCompareFlags_read (s : State) (r m : Byte) (w : Word) :
    (s.setCompareFlags r m).read w = s.read w := rfl
@[simp] theorem State.setCompareFlags_pc (s : State) (r m : Byte) : (s.setCompareFlags r m).pc = s.pc := rfl
@[simp] theorem State.setCompareFlags_inputs (s : State) (r m : Byte) : (s.setCompareFlags r m).inputs = s.inputs := rfl

@[simp] theorem State.setBitFlags_flag (s : State) (a m : Byte) (f : StatusFlag) :
    (s.setBitFlags a m).flag f =
      match f with
      | .Z => a &&& m == 0
      | .N => m.getLsbD 7
      | .V => m.getLsbD 6
      | g => s.flag g := by
  cases f <;> simp [State.setBitFlags]

@[simp] theorem State.setBitFlags_a (s : State) (a m : Byte) : (s.setBitFlags a m).a = s.a := rfl
@[simp] theorem State.setBitFlags_x (s : State) (a m : Byte) : (s.setBitFlags a m).x = s.x := rfl
@[simp] theorem State.setBitFlags_y (s : State) (a m : Byte) : (s.setBitFlags a m).y = s.y := rfl
@[simp] theorem State.setBitFlags_sp (s : State) (a m : Byte) : (s.setBitFlags a m).sp = s.sp := rfl
@[simp] theorem State.setBitFlags_reg (s : State) (a m : Byte) (r : Reg) : (s.setBitFlags a m).reg r = s.reg r := by
  simp [State.setBitFlags]

@[simp] theorem State.setBitFlags_mem (s : State) (a m : Byte) : (s.setBitFlags a m).mem = s.mem := rfl
@[simp] theorem State.setBitFlags_read (s : State) (a m : Byte) (w : Word) :
    (s.setBitFlags a m).read w = s.read w := rfl
@[simp] theorem State.setBitFlags_pc (s : State) (a m : Byte) : (s.setBitFlags a m).pc = s.pc := rfl
@[simp] theorem State.setBitFlags_inputs (s : State) (a m : Byte) : (s.setBitFlags a m).inputs = s.inputs := rfl

end Sys2Proof.Machine
end

