-- ==== Sys2Proof/Laws/Ops.lean ====
section
/-! SUPPORT. What the stack operations and the entry to and return from a handler do, said once. -/

namespace Sys2Proof.Machine

open Sys2Proof

/-! ### Push and pull -/

@[simp] theorem State.push_a (s : State) (v : Byte) : (s.push v).a = s.a := by simp [State.push]
@[simp] theorem State.push_x (s : State) (v : Byte) : (s.push v).x = s.x := by simp [State.push]
@[simp] theorem State.push_y (s : State) (v : Byte) : (s.push v).y = s.y := by simp [State.push]
@[simp] theorem State.push_sp (s : State) (v : Byte) : (s.push v).sp = s.sp - 1 := by simp [State.push]
@[simp] theorem State.push_pc (s : State) (v : Byte) : (s.push v).pc = s.pc := by simp [State.push]
@[simp] theorem State.push_p (s : State) (v : Byte) : (s.push v).p = s.p := by simp [State.push]
@[simp] theorem State.push_countdown (s : State) (v : Byte) : (s.push v).countdown = s.countdown := by simp [State.push]
@[simp] theorem State.push_opcode (s : State) (v : Byte) : (s.push v).opcode = s.opcode := by simp [State.push]
@[simp] theorem State.push_addrAbs (s : State) (v : Byte) : (s.push v).addrAbs = s.addrAbs := by simp [State.push]
@[simp] theorem State.push_addrRel (s : State) (v : Byte) : (s.push v).addrRel = s.addrRel := by simp [State.push]
@[simp] theorem State.push_fetched (s : State) (v : Byte) : (s.push v).fetched = s.fetched := by simp [State.push]
@[simp] theorem State.push_inputs (s : State) (v : Byte) : (s.push v).inputs = s.inputs := by simp [State.push]
@[simp] theorem State.push_reg (s : State) (v : Byte) (r : Reg) :
    (s.push v).reg r = if r = .SP then s.sp - 1 else s.reg r := by simp [State.push]
@[simp] theorem State.push_flag (s : State) (v : Byte) (f : StatusFlag) : (s.push v).flag f = s.flag f := by simp [State.push]

/-- A push writes one stack byte and no other (R165). -/
@[simp] theorem State.push_read (s : State) (v : Byte) (a : Word) :
    (s.push v).read a = if a = stackAddr s.sp then v else s.read a := by simp [State.push]

theorem State.push_wf {s : State} (v : Byte) (h : s.mem.wf) : (s.push v).mem.wf := by
  simpa [State.push] using State.write_wf (stackAddr s.sp) v h

@[simp] theorem State.popped_a (s : State) : (s.popped).a = s.a := by simp [State.popped]
@[simp] theorem State.popped_x (s : State) : (s.popped).x = s.x := by simp [State.popped]
@[simp] theorem State.popped_y (s : State) : (s.popped).y = s.y := by simp [State.popped]
@[simp] theorem State.popped_sp (s : State) : (s.popped).sp = s.sp + 1 := by simp [State.popped]
@[simp] theorem State.popped_pc (s : State) : (s.popped).pc = s.pc := by simp [State.popped]
@[simp] theorem State.popped_p (s : State) : (s.popped).p = s.p := by simp [State.popped]
@[simp] theorem State.popped_countdown (s : State) : (s.popped).countdown = s.countdown := by simp [State.popped]
@[simp] theorem State.popped_opcode (s : State) : (s.popped).opcode = s.opcode := by simp [State.popped]
@[simp] theorem State.popped_addrAbs (s : State) : (s.popped).addrAbs = s.addrAbs := by simp [State.popped]
@[simp] theorem State.popped_addrRel (s : State) : (s.popped).addrRel = s.addrRel := by simp [State.popped]
@[simp] theorem State.popped_fetched (s : State) : (s.popped).fetched = s.fetched := by simp [State.popped]
@[simp] theorem State.popped_inputs (s : State) : (s.popped).inputs = s.inputs := by simp [State.popped]
@[simp] theorem State.popped_mem (s : State) : s.popped.mem = s.mem := by simp [State.popped]
@[simp] theorem State.popped_reg (s : State) (r : Reg) :
    s.popped.reg r = if r = .SP then s.sp + 1 else s.reg r := by simp [State.popped]
@[simp] theorem State.popped_flag (s : State) (f : StatusFlag) : s.popped.flag f = s.flag f := by simp [State.popped]
@[simp] theorem State.popped_read (s : State) (a : Word) : s.popped.read a = s.read a := by simp [State.popped]

/-- Stack addresses determine the stack pointer (R12). -/
@[simp] theorem stackAddr_inj {p q : Byte} : stackAddr p = stackAddr q ↔ p = q := by
  constructor
  · intro h
    simp only [stackAddr] at h
    bv_omega
  · rintro rfl; rfl

/-! ### Words on the stack -/

@[simp] theorem State.pushWord_a (s : State) (w : Word) : (s.pushWord w).a = s.a := by simp [State.pushWord]
@[simp] theorem State.pushWord_x (s : State) (w : Word) : (s.pushWord w).x = s.x := by simp [State.pushWord]
@[simp] theorem State.pushWord_y (s : State) (w : Word) : (s.pushWord w).y = s.y := by simp [State.pushWord]
@[simp] theorem State.pushWord_sp (s : State) (w : Word) : (s.pushWord w).sp = s.sp - 1 - 1 := by simp [State.pushWord]
@[simp] theorem State.pushWord_pc (s : State) (w : Word) : (s.pushWord w).pc = s.pc := by simp [State.pushWord]
@[simp] theorem State.pushWord_p (s : State) (w : Word) : (s.pushWord w).p = s.p := by simp [State.pushWord]
@[simp] theorem State.pushWord_countdown (s : State) (w : Word) : (s.pushWord w).countdown = s.countdown := by simp [State.pushWord]
@[simp] theorem State.pushWord_opcode (s : State) (w : Word) : (s.pushWord w).opcode = s.opcode := by simp [State.pushWord]
@[simp] theorem State.pushWord_addrAbs (s : State) (w : Word) : (s.pushWord w).addrAbs = s.addrAbs := by simp [State.pushWord]
@[simp] theorem State.pushWord_addrRel (s : State) (w : Word) : (s.pushWord w).addrRel = s.addrRel := by simp [State.pushWord]
@[simp] theorem State.pushWord_fetched (s : State) (w : Word) : (s.pushWord w).fetched = s.fetched := by simp [State.pushWord]
@[simp] theorem State.pushWord_inputs (s : State) (w : Word) : (s.pushWord w).inputs = s.inputs := by simp [State.pushWord]
@[simp] theorem State.pushWord_reg (s : State) (w : Word) (r : Reg) :
    (s.pushWord w).reg r = if r = .SP then s.sp - 1 - 1 else s.reg r := by
  cases r <;> simp [State.pushWord]
@[simp] theorem State.pushWord_flag (s : State) (w : Word) (f : StatusFlag) : (s.pushWord w).flag f = s.flag f := by
  simp [State.pushWord]

/-- A pushed word: its high byte at the stack pointer, its low byte one location lower (R43). -/
@[simp] theorem State.pushWord_read (s : State) (w a : Word) :
    (s.pushWord w).read a =
      if a = stackAddr (s.sp - 1) then lo8 w else if a = stackAddr s.sp then hi8 w else s.read a := by
  simp [State.pushWord]

theorem State.pushWord_wf {s : State} (w : Word) (h : s.mem.wf) : (s.pushWord w).mem.wf :=
  State.push_wf _ (State.push_wf _ h)

/-! ### Halves of a word -/

theorem hi8_toNat (w : Word) : (hi8 w).toNat = w.toNat / 256 := by
  have := w.isLt
  simp [hi8, Nat.shiftRight_eq_div_pow]
  omega

theorem lo8_toNat (w : Word) : (lo8 w).toNat = w.toNat % 256 := by
  simp [lo8]

theorem joinBytes_toNat (h l : Byte) : (joinBytes h l).toNat = h.toNat * 256 + l.toNat := by
  simp only [joinBytes, BitVec.toNat_append]
  rw [← Nat.shiftLeft_add_eq_or_of_lt l.isLt, Nat.shiftLeft_eq]

@[simp] theorem hi8_joinBytes (h l : Byte) : hi8 (joinBytes h l) = h := by
  apply BitVec.eq_of_toNat_eq
  have := l.isLt
  rw [hi8_toNat, joinBytes_toNat]
  omega

@[simp] theorem lo8_joinBytes (h l : Byte) : lo8 (joinBytes h l) = l := by
  apply BitVec.eq_of_toNat_eq
  have := l.isLt
  rw [lo8_toNat, joinBytes_toNat]
  omega

@[simp] theorem joinBytes_hi8_lo8 (w : Word) : joinBytes (hi8 w) (lo8 w) = w := by
  apply BitVec.eq_of_toNat_eq
  rw [joinBytes_toNat, hi8_toNat, lo8_toNat]
  omega

/-! ### Handlers -/

@[simp] theorem State.enterHandler_a (s : State) (ret : Word) (status : Byte) (vec : Word) : (s.enterHandler ret status vec).a = s.a := by simp [State.enterHandler]
@[simp] theorem State.enterHandler_x (s : State) (ret : Word) (status : Byte) (vec : Word) : (s.enterHandler ret status vec).x = s.x := by simp [State.enterHandler]
@[simp] theorem State.enterHandler_y (s : State) (ret : Word) (status : Byte) (vec : Word) : (s.enterHandler ret status vec).y = s.y := by simp [State.enterHandler]
@[simp] theorem State.enterHandler_sp (s : State) (ret : Word) (status : Byte) (vec : Word) : (s.enterHandler ret status vec).sp = s.sp - 1 - 1 - 1 := by simp [State.enterHandler]
@[simp] theorem State.enterHandler_p (s : State) (ret : Word) (status : Byte) (vec : Word) : (s.enterHandler ret status vec).p = putFlag s.p .I true := by simp [State.enterHandler]
@[simp] theorem State.enterHandler_countdown (s : State) (ret : Word) (status : Byte) (vec : Word) : (s.enterHandler ret status vec).countdown = s.countdown := by simp [State.enterHandler]
@[simp] theorem State.enterHandler_opcode (s : State) (ret : Word) (status : Byte) (vec : Word) : (s.enterHandler ret status vec).opcode = s.opcode := by simp [State.enterHandler]
@[simp] theorem State.enterHandler_addrAbs (s : State) (ret : Word) (status : Byte) (vec : Word) : (s.enterHandler ret status vec).addrAbs = s.addrAbs := by simp [State.enterHandler]
@[simp] theorem State.enterHandler_addrRel (s : State) (ret : Word) (status : Byte) (vec : Word) : (s.enterHandler ret status vec).addrRel = s.addrRel := by simp [State.enterHandler]
@[simp] theorem State.enterHandler_fetched (s : State) (ret : Word) (status : Byte) (vec : Word) : (s.enterHandler ret status vec).fetched = s.fetched := by simp [State.enterHandler]
@[simp] theorem State.enterHandler_inputs (s : State) (ret : Word) (status : Byte) (vec : Word) : (s.enterHandler ret status vec).inputs = s.inputs := by simp [State.enterHandler]
@[simp] theorem State.enterHandler_reg (s : State) (ret : Word) (status : Byte) (vec : Word) (r : Reg) :
    (s.enterHandler ret status vec).reg r = if r = .SP then s.sp - 1 - 1 - 1 else s.reg r := by
  cases r <;> simp [State.enterHandler]

@[simp] theorem State.enterHandler_flag (s : State) (ret : Word) (status : Byte) (vec : Word) (f : StatusFlag) :
    (s.enterHandler ret status vec).flag f = if f = .I then true else s.flag f := by
  simp [State.enterHandler]

/-- The stack frame, from the higher address down: return address high byte, low byte, status byte (R240). -/
@[simp] theorem State.enterHandler_read (s : State) (ret : Word) (status : Byte) (vec a : Word) :
    (s.enterHandler ret status vec).read a =
      if a = stackAddr (s.sp - 1 - 1) then status
      else if a = stackAddr (s.sp - 1) then lo8 ret
      else if a = stackAddr s.sp then hi8 ret
      else s.read a := by
  simp [State.enterHandler]

/-- `pc` is the vector's word as the store holds it after the three pushes (R234). -/
theorem State.enterHandler_pc (s : State) (ret : Word) (status : Byte) (vec : Word) :
    (s.enterHandler ret status vec).pc = (s.enterHandler ret status vec).read16 vec := rfl

theorem State.enterHandler_wf {s : State} (ret : Word) (status : Byte) (vec : Word) (h : s.mem.wf) :
    (s.enterHandler ret status vec).mem.wf := State.push_wf _ (State.pushWord_wf _ h)

theorem State.interruptEntry_wf {s : State} (vec : Word) (cost : Nat) (h : s.mem.wf) :
    (s.interruptEntry vec cost).mem.wf := by
  rw [State.interruptEntry, State.charge_mem]
  exact State.enterHandler_wf _ _ _ h

@[simp] theorem State.interruptEntry_countdown (s : State) (vec : Word) (cost : Nat) :
    (s.interruptEntry vec cost).countdown = cost := rfl

@[simp] theorem State.interruptEntry_inputs (s : State) (vec : Word) (cost : Nat) :
    (s.interruptEntry vec cost).inputs = s.inputs := by simp [State.interruptEntry]

@[simp] theorem State.interruptEntry_a (s : State) (vec : Word) (cost : Nat) :
    (s.interruptEntry vec cost).a = s.a := by simp [State.interruptEntry]
@[simp] theorem State.interruptEntry_x (s : State) (vec : Word) (cost : Nat) :
    (s.interruptEntry vec cost).x = s.x := by simp [State.interruptEntry]
@[simp] theorem State.interruptEntry_y (s : State) (vec : Word) (cost : Nat) :
    (s.interruptEntry vec cost).y = s.y := by simp [State.interruptEntry]
@[simp] theorem State.interruptEntry_sp (s : State) (vec : Word) (cost : Nat) :
    (s.interruptEntry vec cost).sp = s.sp - 1 - 1 - 1 := by simp [State.interruptEntry]

@[simp] theorem State.interruptEntry_reg (s : State) (vec : Word) (cost : Nat) (r : Reg) :
    (s.interruptEntry vec cost).reg r = if r = .SP then s.sp - 1 - 1 - 1 else s.reg r := by
  simp [State.interruptEntry]

@[simp] theorem State.interruptEntry_flag (s : State) (vec : Word) (cost : Nat) (f : StatusFlag) :
    (s.interruptEntry vec cost).flag f =
      if f = .I then true else if f = .U then true else if f = .B then false else s.flag f := by
  simp [State.interruptEntry, State.flag]

/-- The frame of IRQ and NMI: `pc` and the live status as the entry makes it (R234). -/
@[simp] theorem State.interruptEntry_read (s : State) (vec : Word) (cost : Nat) (a : Word) :
    (s.interruptEntry vec cost).read a =
      if a = stackAddr (s.sp - 1 - 1) then interruptStatus s.p
      else if a = stackAddr (s.sp - 1) then lo8 s.pc
      else if a = stackAddr s.sp then hi8 s.pc
      else s.read a := by
  rw [State.interruptEntry, State.charge_read, State.enterHandler_read]
  rfl

theorem State.interruptEntry_pc (s : State) (vec : Word) (cost : Nat) :
    (s.interruptEntry vec cost).pc = (s.interruptEntry vec cost).read16 vec := rfl

@[simp] theorem State.leaveHandler_mem (s : State) : s.leaveHandler.mem = s.mem := by simp [State.leaveHandler]
@[simp] theorem State.leaveHandler_read (s : State) (a : Word) : s.leaveHandler.read a = s.read a := by
  simp [State.leaveHandler]
@[simp] theorem State.leaveHandler_inputs (s : State) : s.leaveHandler.inputs = s.inputs := by simp [State.leaveHandler]

@[simp] theorem State.leaveHandler_a (s : State) : s.leaveHandler.a = s.a := by simp [State.leaveHandler]
@[simp] theorem State.leaveHandler_x (s : State) : s.leaveHandler.x = s.x := by simp [State.leaveHandler]
@[simp] theorem State.leaveHandler_y (s : State) : s.leaveHandler.y = s.y := by simp [State.leaveHandler]
@[simp] theorem State.leaveHandler_sp (s : State) : s.leaveHandler.sp = s.sp + 1 + 1 + 1 := by simp [State.leaveHandler]

@[simp] theorem State.leaveHandler_reg (s : State) (r : Reg) :
    s.leaveHandler.reg r = if r = .SP then s.sp + 1 + 1 + 1 else s.reg r := by
  cases r <;> simp [State.leaveHandler]

/-- Six flags from the pulled byte, Break and Unused cleared (R196). -/
@[simp] theorem State.leaveHandler_flag (s : State) (f : StatusFlag) :
    s.leaveHandler.flag f = if f = .U ∨ f = .B then false else getFlag s.pulled f := by
  simp [State.leaveHandler]

/-- `pc` is the word pulled after the status byte, not adjusted (R196). -/
theorem State.leaveHandler_pc (s : State) :
    s.leaveHandler.pc = joinBytes (s.read (stackAddr (s.sp + 1 + 1 + 1))) (s.read (stackAddr (s.sp + 1 + 1))) := by
  simp [State.leaveHandler, State.pulledWord, State.pulled]

end Sys2Proof.Machine
end

