-- ==== Sys2Proof/Laws/Operands.lean ====
section
/-! SUPPORT. What the mode routines, the fetch helper and the write-back leave and change. -/

namespace Sys2Proof.Machine

open Sys2Proof

@[simp] theorem afterMode_pc (o : Operand) (s : State) : (afterMode o s).pc = s.pcAfter o.mode.length := rfl
@[simp] theorem afterMode_reg (o : Operand) (s : State) (r : Reg) : (afterMode o s).reg r = s.reg r := by cases r <;> rfl
@[simp] theorem afterMode_flag (o : Operand) (s : State) (f : StatusFlag) : (afterMode o s).flag f = s.flag f := rfl
@[simp] theorem afterMode_read (o : Operand) (s : State) (a : Word) : (afterMode o s).read a = s.read a := rfl
@[simp] theorem afterMode_mem (o : Operand) (s : State) : (afterMode o s).mem = s.mem := rfl
@[simp] theorem afterMode_inputs (o : Operand) (s : State) : (afterMode o s).inputs = s.inputs := rfl
@[simp] theorem afterMode_a (o : Operand) (s : State) : (afterMode o s).a = s.a := rfl
@[simp] theorem afterMode_x (o : Operand) (s : State) : (afterMode o s).x = s.x := rfl
@[simp] theorem afterMode_y (o : Operand) (s : State) : (afterMode o s).y = s.y := rfl
@[simp] theorem afterMode_sp (o : Operand) (s : State) : (afterMode o s).sp = s.sp := rfl
@[simp] theorem afterMode_addrAbs (o : Operand) (s : State) : (afterMode o s).addrAbs = (resolve o s).addr := rfl

@[simp] theorem afterFetch_pc (o : Operand) (s : State) : (afterFetch o s).pc = s.pcAfter o.mode.length := rfl
@[simp] theorem afterFetch_a (o : Operand) (s : State) : (afterFetch o s).a = s.a := rfl
@[simp] theorem afterFetch_x (o : Operand) (s : State) : (afterFetch o s).x = s.x := rfl
@[simp] theorem afterFetch_y (o : Operand) (s : State) : (afterFetch o s).y = s.y := rfl
@[simp] theorem afterFetch_sp (o : Operand) (s : State) : (afterFetch o s).sp = s.sp := rfl
@[simp] theorem afterFetch_reg (o : Operand) (s : State) (r : Reg) : (afterFetch o s).reg r = s.reg r := by
  cases r <;> rfl
@[simp] theorem afterFetch_flag (o : Operand) (s : State) (f : StatusFlag) : (afterFetch o s).flag f = s.flag f := rfl
@[simp] theorem afterFetch_read (o : Operand) (s : State) (a : Word) : (afterFetch o s).read a = s.read a := rfl
@[simp] theorem afterFetch_mem (o : Operand) (s : State) : (afterFetch o s).mem = s.mem := rfl
@[simp] theorem afterFetch_inputs (o : Operand) (s : State) : (afterFetch o s).inputs = s.inputs := rfl
@[simp] theorem afterFetch_fetched (o : Operand) (s : State) : (afterFetch o s).fetched = fetchOperand o s := rfl

@[simp] theorem writeBack_pc (o : Operand) (s : State) (r : Byte) (t : State) : (writeBack o s r t).pc = t.pc := by
  cases o <;> simp [writeBack]

@[simp] theorem writeBack_inputs (o : Operand) (s : State) (r : Byte) (t : State) :
    (writeBack o s r t).inputs = t.inputs := by
  cases o <;> simp [writeBack]

@[simp] theorem writeBack_x (o : Operand) (s : State) (r : Byte) (t : State) : (writeBack o s r t).x = t.x := by
  cases o <;> simp [writeBack]
@[simp] theorem writeBack_y (o : Operand) (s : State) (r : Byte) (t : State) : (writeBack o s r t).y = t.y := by
  cases o <;> simp [writeBack]
@[simp] theorem writeBack_sp (o : Operand) (s : State) (r : Byte) (t : State) : (writeBack o s r t).sp = t.sp := by
  cases o <;> simp [writeBack]

/-- The accumulator form writes the accumulator, a memory form no register (R120). -/
@[simp] theorem writeBack_reg (o : Operand) (s : State) (r : Byte) (t : State) (q : Reg) :
    (writeBack o s r t).reg q = if o = .imp ∧ q = .A then r else t.reg q := by
  cases o <;> simp [writeBack]

/-- A memory form writes the resolved address, the accumulator form no memory (R120). -/
@[simp] theorem writeBack_read (o : Operand) (s : State) (r : Byte) (t : State) (a : Word) :
    (writeBack o s r t).read a = if o ≠ .imp ∧ a = (resolve o s).addr then r else t.read a := by
  cases o <;> simp [writeBack]

/-- Zero and Negative from the result in both forms (R120). -/
@[simp] theorem writeBack_flag (o : Operand) (s : State) (r : Byte) (t : State) (f : StatusFlag) :
    (writeBack o s r t).flag f = if f = .N then r.getLsbD 7 else if f = .Z then r == 0 else t.flag f := by
  cases o <;> simp [writeBack]

theorem writeBack_wf (o : Operand) (s : State) (r : Byte) {t : State} (h : t.mem.wf) : (writeBack o s r t).mem.wf := by
  cases o <;> first | exact State.write_wf _ _ h | simpa [writeBack] using h

@[simp] theorem implied_countdown (n : Nat) (work : State → State) (s : State) : (implied n work s).countdown = n := rfl
@[simp] theorem implied_pc (n : Nat) (work : State → State) (s : State) :
    (implied n work s).pc = (work (s.setPc (s.pcAfter 1))).pc := rfl
@[simp] theorem implied_mem (n : Nat) (work : State → State) (s : State) :
    (implied n work s).mem = (work (s.setPc (s.pcAfter 1))).mem := rfl
@[simp] theorem implied_inputs (n : Nat) (work : State → State) (s : State) :
    (implied n work s).inputs = (work (s.setPc (s.pcAfter 1))).inputs := rfl
@[simp] theorem implied_a (n : Nat) (work : State → State) (s : State) :
    (implied n work s).a = (work (s.setPc (s.pcAfter 1))).a := rfl
@[simp] theorem implied_x (n : Nat) (work : State → State) (s : State) :
    (implied n work s).x = (work (s.setPc (s.pcAfter 1))).x := rfl
@[simp] theorem implied_y (n : Nat) (work : State → State) (s : State) :
    (implied n work s).y = (work (s.setPc (s.pcAfter 1))).y := rfl
@[simp] theorem implied_sp (n : Nat) (work : State → State) (s : State) :
    (implied n work s).sp = (work (s.setPc (s.pcAfter 1))).sp := rfl
@[simp] theorem implied_p (n : Nat) (work : State → State) (s : State) :
    (implied n work s).p = (work (s.setPc (s.pcAfter 1))).p := rfl
@[simp] theorem implied_reg (n : Nat) (work : State → State) (s : State) (r : Reg) :
    (implied n work s).reg r = (work (s.setPc (s.pcAfter 1))).reg r := by cases r <;> rfl
@[simp] theorem implied_flag (n : Nat) (work : State → State) (s : State) (f : StatusFlag) :
    (implied n work s).flag f = (work (s.setPc (s.pcAfter 1))).flag f := rfl
@[simp] theorem implied_read (n : Nat) (work : State → State) (s : State) (a : Word) :
    (implied n work s).read a = (work (s.setPc (s.pcAfter 1))).read a := rfl

/-- A form costs its base, or one more (R217). -/
theorem formCost_bounds (base : Nat) (ox : Bool) (o : Operand) (s : State) :
    base ≤ formCost base ox o s ∧ formCost base ox o s ≤ base + 1 := by
  unfold formCost
  split <;> omega

end Sys2Proof.Machine
end

