-- ==== Sys2Proof/Laws/PerInstr.lean ====
section
/-! SUPPORT. One fact per constructor of `Instr`: the encoder gives a well-formed instruction as many bytes as its
addressing mode says (30_encoding.md R60). -/

/-- The bytes of a well-formed instruction are as many as its mode says (R60). -/
def Sys2Proof.Laws.EncodesItsLength.Statement (i : Sys2Proof.Instr) : Prop :=
  i.wf = true → (Sys2Proof.encode i).length = i.length

/-- An ill-formed term meets the statement, a well-formed one by computing its bytes. -/
theorem Sys2Proof.Laws.EncodesItsLength.of_bool {i : Sys2Proof.Instr}
    (h : i.wf = false ∨ (Sys2Proof.encode i).length = i.length) : Sys2Proof.Laws.EncodesItsLength.Statement i := by
  intro hw
  rcases h with h | h
  · rw [h] at hw; cases hw
  · exact h

theorem Sys2Proof.Laws.EncodesItsLength.adc (o : Sys2Proof.Operand) : Sys2Proof.Laws.EncodesItsLength.Statement (.adc o) := by
  cases o <;> first | exact Sys2Proof.Laws.EncodesItsLength.of_bool (.inl rfl) | exact Sys2Proof.Laws.EncodesItsLength.of_bool (.inr rfl)
theorem Sys2Proof.Laws.EncodesItsLength.sbc (o : Sys2Proof.Operand) : Sys2Proof.Laws.EncodesItsLength.Statement (.sbc o) := by
  cases o <;> first | exact Sys2Proof.Laws.EncodesItsLength.of_bool (.inl rfl) | exact Sys2Proof.Laws.EncodesItsLength.of_bool (.inr rfl)
theorem Sys2Proof.Laws.EncodesItsLength.and (o : Sys2Proof.Operand) : Sys2Proof.Laws.EncodesItsLength.Statement (.and o) := by
  cases o <;> first | exact Sys2Proof.Laws.EncodesItsLength.of_bool (.inl rfl) | exact Sys2Proof.Laws.EncodesItsLength.of_bool (.inr rfl)
theorem Sys2Proof.Laws.EncodesItsLength.ora (o : Sys2Proof.Operand) : Sys2Proof.Laws.EncodesItsLength.Statement (.ora o) := by
  cases o <;> first | exact Sys2Proof.Laws.EncodesItsLength.of_bool (.inl rfl) | exact Sys2Proof.Laws.EncodesItsLength.of_bool (.inr rfl)
theorem Sys2Proof.Laws.EncodesItsLength.eor (o : Sys2Proof.Operand) : Sys2Proof.Laws.EncodesItsLength.Statement (.eor o) := by
  cases o <;> first | exact Sys2Proof.Laws.EncodesItsLength.of_bool (.inl rfl) | exact Sys2Proof.Laws.EncodesItsLength.of_bool (.inr rfl)
theorem Sys2Proof.Laws.EncodesItsLength.bit (o : Sys2Proof.Operand) : Sys2Proof.Laws.EncodesItsLength.Statement (.bit o) := by
  cases o <;> first | exact Sys2Proof.Laws.EncodesItsLength.of_bool (.inl rfl) | exact Sys2Proof.Laws.EncodesItsLength.of_bool (.inr rfl)
theorem Sys2Proof.Laws.EncodesItsLength.asl (o : Sys2Proof.Operand) : Sys2Proof.Laws.EncodesItsLength.Statement (.asl o) := by
  cases o <;> first | exact Sys2Proof.Laws.EncodesItsLength.of_bool (.inl rfl) | exact Sys2Proof.Laws.EncodesItsLength.of_bool (.inr rfl)
theorem Sys2Proof.Laws.EncodesItsLength.lsr (o : Sys2Proof.Operand) : Sys2Proof.Laws.EncodesItsLength.Statement (.lsr o) := by
  cases o <;> first | exact Sys2Proof.Laws.EncodesItsLength.of_bool (.inl rfl) | exact Sys2Proof.Laws.EncodesItsLength.of_bool (.inr rfl)
theorem Sys2Proof.Laws.EncodesItsLength.rol (o : Sys2Proof.Operand) : Sys2Proof.Laws.EncodesItsLength.Statement (.rol o) := by
  cases o <;> first | exact Sys2Proof.Laws.EncodesItsLength.of_bool (.inl rfl) | exact Sys2Proof.Laws.EncodesItsLength.of_bool (.inr rfl)
theorem Sys2Proof.Laws.EncodesItsLength.ror (o : Sys2Proof.Operand) : Sys2Proof.Laws.EncodesItsLength.Statement (.ror o) := by
  cases o <;> first | exact Sys2Proof.Laws.EncodesItsLength.of_bool (.inl rfl) | exact Sys2Proof.Laws.EncodesItsLength.of_bool (.inr rfl)
theorem Sys2Proof.Laws.EncodesItsLength.cmp (o : Sys2Proof.Operand) : Sys2Proof.Laws.EncodesItsLength.Statement (.cmp o) := by
  cases o <;> first | exact Sys2Proof.Laws.EncodesItsLength.of_bool (.inl rfl) | exact Sys2Proof.Laws.EncodesItsLength.of_bool (.inr rfl)
theorem Sys2Proof.Laws.EncodesItsLength.cpx (o : Sys2Proof.Operand) : Sys2Proof.Laws.EncodesItsLength.Statement (.cpx o) := by
  cases o <;> first | exact Sys2Proof.Laws.EncodesItsLength.of_bool (.inl rfl) | exact Sys2Proof.Laws.EncodesItsLength.of_bool (.inr rfl)
theorem Sys2Proof.Laws.EncodesItsLength.cpy (o : Sys2Proof.Operand) : Sys2Proof.Laws.EncodesItsLength.Statement (.cpy o) := by
  cases o <;> first | exact Sys2Proof.Laws.EncodesItsLength.of_bool (.inl rfl) | exact Sys2Proof.Laws.EncodesItsLength.of_bool (.inr rfl)
theorem Sys2Proof.Laws.EncodesItsLength.inc (o : Sys2Proof.Operand) : Sys2Proof.Laws.EncodesItsLength.Statement (.inc o) := by
  cases o <;> first | exact Sys2Proof.Laws.EncodesItsLength.of_bool (.inl rfl) | exact Sys2Proof.Laws.EncodesItsLength.of_bool (.inr rfl)
theorem Sys2Proof.Laws.EncodesItsLength.dec (o : Sys2Proof.Operand) : Sys2Proof.Laws.EncodesItsLength.Statement (.dec o) := by
  cases o <;> first | exact Sys2Proof.Laws.EncodesItsLength.of_bool (.inl rfl) | exact Sys2Proof.Laws.EncodesItsLength.of_bool (.inr rfl)
theorem Sys2Proof.Laws.EncodesItsLength.inx : Sys2Proof.Laws.EncodesItsLength.Statement .inx := Sys2Proof.Laws.EncodesItsLength.of_bool (.inr rfl)
theorem Sys2Proof.Laws.EncodesItsLength.iny : Sys2Proof.Laws.EncodesItsLength.Statement .iny := Sys2Proof.Laws.EncodesItsLength.of_bool (.inr rfl)
theorem Sys2Proof.Laws.EncodesItsLength.dex : Sys2Proof.Laws.EncodesItsLength.Statement .dex := Sys2Proof.Laws.EncodesItsLength.of_bool (.inr rfl)
theorem Sys2Proof.Laws.EncodesItsLength.dey : Sys2Proof.Laws.EncodesItsLength.Statement .dey := Sys2Proof.Laws.EncodesItsLength.of_bool (.inr rfl)
theorem Sys2Proof.Laws.EncodesItsLength.lda (o : Sys2Proof.Operand) : Sys2Proof.Laws.EncodesItsLength.Statement (.lda o) := by
  cases o <;> first | exact Sys2Proof.Laws.EncodesItsLength.of_bool (.inl rfl) | exact Sys2Proof.Laws.EncodesItsLength.of_bool (.inr rfl)
theorem Sys2Proof.Laws.EncodesItsLength.ldx (o : Sys2Proof.Operand) : Sys2Proof.Laws.EncodesItsLength.Statement (.ldx o) := by
  cases o <;> first | exact Sys2Proof.Laws.EncodesItsLength.of_bool (.inl rfl) | exact Sys2Proof.Laws.EncodesItsLength.of_bool (.inr rfl)
theorem Sys2Proof.Laws.EncodesItsLength.ldy (o : Sys2Proof.Operand) : Sys2Proof.Laws.EncodesItsLength.Statement (.ldy o) := by
  cases o <;> first | exact Sys2Proof.Laws.EncodesItsLength.of_bool (.inl rfl) | exact Sys2Proof.Laws.EncodesItsLength.of_bool (.inr rfl)
theorem Sys2Proof.Laws.EncodesItsLength.sta (o : Sys2Proof.Operand) : Sys2Proof.Laws.EncodesItsLength.Statement (.sta o) := by
  cases o <;> first | exact Sys2Proof.Laws.EncodesItsLength.of_bool (.inl rfl) | exact Sys2Proof.Laws.EncodesItsLength.of_bool (.inr rfl)
theorem Sys2Proof.Laws.EncodesItsLength.stx (o : Sys2Proof.Operand) : Sys2Proof.Laws.EncodesItsLength.Statement (.stx o) := by
  cases o <;> first | exact Sys2Proof.Laws.EncodesItsLength.of_bool (.inl rfl) | exact Sys2Proof.Laws.EncodesItsLength.of_bool (.inr rfl)
theorem Sys2Proof.Laws.EncodesItsLength.sty (o : Sys2Proof.Operand) : Sys2Proof.Laws.EncodesItsLength.Statement (.sty o) := by
  cases o <;> first | exact Sys2Proof.Laws.EncodesItsLength.of_bool (.inl rfl) | exact Sys2Proof.Laws.EncodesItsLength.of_bool (.inr rfl)
theorem Sys2Proof.Laws.EncodesItsLength.tax : Sys2Proof.Laws.EncodesItsLength.Statement .tax := Sys2Proof.Laws.EncodesItsLength.of_bool (.inr rfl)
theorem Sys2Proof.Laws.EncodesItsLength.tay : Sys2Proof.Laws.EncodesItsLength.Statement .tay := Sys2Proof.Laws.EncodesItsLength.of_bool (.inr rfl)
theorem Sys2Proof.Laws.EncodesItsLength.txa : Sys2Proof.Laws.EncodesItsLength.Statement .txa := Sys2Proof.Laws.EncodesItsLength.of_bool (.inr rfl)
theorem Sys2Proof.Laws.EncodesItsLength.tya : Sys2Proof.Laws.EncodesItsLength.Statement .tya := Sys2Proof.Laws.EncodesItsLength.of_bool (.inr rfl)
theorem Sys2Proof.Laws.EncodesItsLength.tsx : Sys2Proof.Laws.EncodesItsLength.Statement .tsx := Sys2Proof.Laws.EncodesItsLength.of_bool (.inr rfl)
theorem Sys2Proof.Laws.EncodesItsLength.txs : Sys2Proof.Laws.EncodesItsLength.Statement .txs := Sys2Proof.Laws.EncodesItsLength.of_bool (.inr rfl)
theorem Sys2Proof.Laws.EncodesItsLength.pha : Sys2Proof.Laws.EncodesItsLength.Statement .pha := Sys2Proof.Laws.EncodesItsLength.of_bool (.inr rfl)
theorem Sys2Proof.Laws.EncodesItsLength.pla : Sys2Proof.Laws.EncodesItsLength.Statement .pla := Sys2Proof.Laws.EncodesItsLength.of_bool (.inr rfl)
theorem Sys2Proof.Laws.EncodesItsLength.php : Sys2Proof.Laws.EncodesItsLength.Statement .php := Sys2Proof.Laws.EncodesItsLength.of_bool (.inr rfl)
theorem Sys2Proof.Laws.EncodesItsLength.plp : Sys2Proof.Laws.EncodesItsLength.Statement .plp := Sys2Proof.Laws.EncodesItsLength.of_bool (.inr rfl)
theorem Sys2Proof.Laws.EncodesItsLength.bcc (d : Sys2Proof.Byte) : Sys2Proof.Laws.EncodesItsLength.Statement (.bcc d) := Sys2Proof.Laws.EncodesItsLength.of_bool (.inr rfl)
theorem Sys2Proof.Laws.EncodesItsLength.bcs (d : Sys2Proof.Byte) : Sys2Proof.Laws.EncodesItsLength.Statement (.bcs d) := Sys2Proof.Laws.EncodesItsLength.of_bool (.inr rfl)
theorem Sys2Proof.Laws.EncodesItsLength.beq (d : Sys2Proof.Byte) : Sys2Proof.Laws.EncodesItsLength.Statement (.beq d) := Sys2Proof.Laws.EncodesItsLength.of_bool (.inr rfl)
theorem Sys2Proof.Laws.EncodesItsLength.bne (d : Sys2Proof.Byte) : Sys2Proof.Laws.EncodesItsLength.Statement (.bne d) := Sys2Proof.Laws.EncodesItsLength.of_bool (.inr rfl)
theorem Sys2Proof.Laws.EncodesItsLength.bmi (d : Sys2Proof.Byte) : Sys2Proof.Laws.EncodesItsLength.Statement (.bmi d) := Sys2Proof.Laws.EncodesItsLength.of_bool (.inr rfl)
theorem Sys2Proof.Laws.EncodesItsLength.bpl (d : Sys2Proof.Byte) : Sys2Proof.Laws.EncodesItsLength.Statement (.bpl d) := Sys2Proof.Laws.EncodesItsLength.of_bool (.inr rfl)
theorem Sys2Proof.Laws.EncodesItsLength.bvc (d : Sys2Proof.Byte) : Sys2Proof.Laws.EncodesItsLength.Statement (.bvc d) := Sys2Proof.Laws.EncodesItsLength.of_bool (.inr rfl)
theorem Sys2Proof.Laws.EncodesItsLength.bvs (d : Sys2Proof.Byte) : Sys2Proof.Laws.EncodesItsLength.Statement (.bvs d) := Sys2Proof.Laws.EncodesItsLength.of_bool (.inr rfl)
theorem Sys2Proof.Laws.EncodesItsLength.jmp (o : Sys2Proof.Operand) : Sys2Proof.Laws.EncodesItsLength.Statement (.jmp o) := by
  cases o <;> first | exact Sys2Proof.Laws.EncodesItsLength.of_bool (.inl rfl) | exact Sys2Proof.Laws.EncodesItsLength.of_bool (.inr rfl)
theorem Sys2Proof.Laws.EncodesItsLength.jsr (w : Sys2Proof.Word) : Sys2Proof.Laws.EncodesItsLength.Statement (.jsr w) := Sys2Proof.Laws.EncodesItsLength.of_bool (.inr rfl)
theorem Sys2Proof.Laws.EncodesItsLength.rts : Sys2Proof.Laws.EncodesItsLength.Statement .rts := Sys2Proof.Laws.EncodesItsLength.of_bool (.inr rfl)
theorem Sys2Proof.Laws.EncodesItsLength.brk : Sys2Proof.Laws.EncodesItsLength.Statement .brk := Sys2Proof.Laws.EncodesItsLength.of_bool (.inr rfl)
theorem Sys2Proof.Laws.EncodesItsLength.rti : Sys2Proof.Laws.EncodesItsLength.Statement .rti := Sys2Proof.Laws.EncodesItsLength.of_bool (.inr rfl)
theorem Sys2Proof.Laws.EncodesItsLength.clc : Sys2Proof.Laws.EncodesItsLength.Statement .clc := Sys2Proof.Laws.EncodesItsLength.of_bool (.inr rfl)
theorem Sys2Proof.Laws.EncodesItsLength.sec : Sys2Proof.Laws.EncodesItsLength.Statement .sec := Sys2Proof.Laws.EncodesItsLength.of_bool (.inr rfl)
theorem Sys2Proof.Laws.EncodesItsLength.cli : Sys2Proof.Laws.EncodesItsLength.Statement .cli := Sys2Proof.Laws.EncodesItsLength.of_bool (.inr rfl)
theorem Sys2Proof.Laws.EncodesItsLength.sei : Sys2Proof.Laws.EncodesItsLength.Statement .sei := Sys2Proof.Laws.EncodesItsLength.of_bool (.inr rfl)
theorem Sys2Proof.Laws.EncodesItsLength.cld : Sys2Proof.Laws.EncodesItsLength.Statement .cld := Sys2Proof.Laws.EncodesItsLength.of_bool (.inr rfl)
theorem Sys2Proof.Laws.EncodesItsLength.sed : Sys2Proof.Laws.EncodesItsLength.Statement .sed := Sys2Proof.Laws.EncodesItsLength.of_bool (.inr rfl)
theorem Sys2Proof.Laws.EncodesItsLength.clv : Sys2Proof.Laws.EncodesItsLength.Statement .clv := Sys2Proof.Laws.EncodesItsLength.of_bool (.inr rfl)
theorem Sys2Proof.Laws.EncodesItsLength.nop : Sys2Proof.Laws.EncodesItsLength.Statement .nop := Sys2Proof.Laws.EncodesItsLength.of_bool (.inr rfl)
theorem Sys2Proof.Laws.EncodesItsLength.undImp (op : Sys2Proof.Byte) : Sys2Proof.Laws.EncodesItsLength.Statement (.undImp op) := by
  intro h
  have h' : Sys2Proof.Config.undocImp.contains op = true := h
  simp only [Sys2Proof.encode, Sys2Proof.opcodeOf, h']
  rfl
theorem Sys2Proof.Laws.EncodesItsLength.undAbx (op : Sys2Proof.Byte) (w : Sys2Proof.Word) : Sys2Proof.Laws.EncodesItsLength.Statement (.undAbx op w) := by
  intro h
  have h' : Sys2Proof.Config.undocAbx.contains op = true := h
  simp only [Sys2Proof.encode, Sys2Proof.opcodeOf, h']
  rfl
end

