-- ==== Sys2Proof/Laws/Step.lean ====
section
/-! SUPPORT. What a step can do, said once: the step at each kind of input, and the inversion of a step that answers a
next state. -/

namespace Sys2Proof.Machine

open Sys2Proof

theorem step_of_no_input {s : State} (h : s.inputs = []) : step s = clockCommand s := by
  simp [step, h]

theorem step_of_input {s : State} {e : Input} {rest : List Input} (h : s.inputs = e :: rest) :
    step s = perform e (s.setInputs rest) := by
  simp [step, h]

theorem clockCommand_busy {s : State} (h : s.countdown ≠ 0) : clockCommand s = .next s.tickEnd := by
  simp [clockCommand, h]

theorem clockCommand_idle {s t : State} (h : s.countdown = 0) (hd : dispatch s = .next t) :
    clockCommand s = .next t.tickEnd := by
  simp [clockCommand, h, hd]

/-- What a Clock command that answers a next state did. -/
theorem clockCommand_cases {s t : State} (h : clockCommand s = .next t) :
    (s.countdown ≠ 0 ∧ t = s.tickEnd) ∨ (s.countdown = 0 ∧ ∃ u, dispatch s = .next u ∧ t = u.tickEnd) := by
  by_cases hc : s.countdown = 0
  · refine .inr ⟨hc, ?_⟩
    cases hd : dispatch s with
    | next u => exact ⟨u, rfl, by simpa [clockCommand, hc, hd] using h.symm⟩
    | fault r => simp [clockCommand, hc, hd] at h
    | refused r => simp [clockCommand, hc, hd] at h
  · exact .inl ⟨hc, by simpa [clockCommand, hc] using h.symm⟩

/-- What a step that answers a next state did: a tick (listed or not), one of the other commands, or a host write. -/
theorem step_cases {s t : State} (h : step s = .next t) :
    (s.inputs = [] ∧ clockCommand s = .next t) ∨
    (∃ rest, s.inputs = .command .clock :: rest ∧ clockCommand (s.setInputs rest) = .next t) ∨
    (∃ rest, s.inputs = .command .reset :: rest ∧ t = resetCommand (s.setInputs rest)) ∨
    (∃ rest, s.inputs = .command .irq :: rest ∧ t = irqCommand (s.setInputs rest)) ∨
    (∃ rest, s.inputs = .command .nmi :: rest ∧ t = nmiCommand (s.setInputs rest)) ∨
    (∃ rest a v, s.inputs = .hostWrite a v :: rest ∧ t = (s.setInputs rest).write a v) := by
  match hi : s.inputs with
  | [] => exact .inl ⟨rfl, by rw [← step_of_no_input hi, h]⟩
  | .command .clock :: rest => exact .inr (.inl ⟨rest, rfl, by simpa [step_of_input hi, perform] using h⟩)
  | .command .reset :: rest =>
    exact .inr (.inr (.inl ⟨rest, rfl, by simpa [step_of_input hi, perform] using h.symm⟩))
  | .command .irq :: rest =>
    exact .inr (.inr (.inr (.inl ⟨rest, rfl, by simpa [step_of_input hi, perform] using h.symm⟩)))
  | .command .nmi :: rest =>
    exact .inr (.inr (.inr (.inr (.inl ⟨rest, rfl, by simpa [step_of_input hi, perform] using h.symm⟩))))
  | .hostWrite a v :: rest =>
    exact .inr (.inr (.inr (.inr (.inr ⟨rest, a, v, rfl, by simpa [step_of_input hi, perform] using h.symm⟩))))

end Sys2Proof.Machine
end

