-- ==== Sys2Proof/Tests/Slice0.lean ====
section
/-! SUPPORT. The model's own tests: ill-formed terms, words written out bit by bit from the spec's encodings, single
steps with expected results from spec/95_test_vectors.md, and a witness for the hypotheses of every obligation that
has some. -/

namespace Sys2Proof.Tests

open Sys2Proof Sys2Proof.Machine Sys2Proof.Claims

/-! ## Well-formedness: a term that each check refuses, and an ill-formed term has no bytes -/

theorem test_illFormed_arithmetic_and_reads : ∀ i ∈ [Instr.adc .imp, Instr.sbc (.zpy 0x10), Instr.and (.ind 0x1234), Instr.ora .imp, Instr.eor (.zpy 0), Instr.cmp (.ind 0), Instr.lda .imp], i.wf = false ∧ encode i = [] := by decide

theorem test_illFormed_bit : ∀ i ∈ [Instr.bit (.imm 1), Instr.bit (.abx 0)], i.wf = false ∧ encode i = [] := by decide

theorem test_illFormed_shifts : ∀ i ∈ [Instr.asl (.imm 1), Instr.lsr (.aby 0), Instr.rol (.izx 0), Instr.ror (.ind 0)], i.wf = false ∧ encode i = [] := by decide

theorem test_illFormed_index_compares : ∀ i ∈ [Instr.cpx (.zpx 0), Instr.cpy (.abx 0)], i.wf = false ∧ encode i = [] := by decide

theorem test_illFormed_memory_steps : ∀ i ∈ [Instr.inc .imp, Instr.dec (.izy 0)], i.wf = false ∧ encode i = [] := by decide

theorem test_illFormed_index_loads : ∀ i ∈ [Instr.ldx (.zpx 0), Instr.ldx (.abx 0), Instr.ldy (.zpy 0), Instr.ldy (.aby 0)], i.wf = false ∧ encode i = [] := by decide

theorem test_illFormed_stores : ∀ i ∈ [Instr.sta (.imm 0), Instr.stx (.zpx 0), Instr.stx (.aby 0), Instr.sty (.zpy 0), Instr.sty (.abx 0)], i.wf = false ∧ encode i = [] := by decide

theorem test_illFormed_jump : ∀ i ∈ [Instr.jmp (.abx 0), Instr.jmp .imp], i.wf = false ∧ encode i = [] := by decide

theorem test_illFormed_undocumented : ∀ i ∈ [Instr.undImp 0xEA, Instr.undImp 0x1C, Instr.undAbx 0x02 0, Instr.undAbx 0x0C 0], i.wf = false ∧ encode i = [] := by decide

/-! ## Decoding: words written out bit by bit from the `Encoding:` lines of the rules; each list is every form of its
instructions -/

theorem test_decode_add_subtract :
    decode [0b01101001, 0x34] = .ok (.adc (.imm 0x34), []) ∧
    decode [0b01100101, 0x34] = .ok (.adc (.zp0 0x34), []) ∧
    decode [0b01110101, 0x34] = .ok (.adc (.zpx 0x34), []) ∧
    decode [0b01101101, 0x34, 0x12] = .ok (.adc (.abs 0x1234), []) ∧
    decode [0b01111101, 0x34, 0x12] = .ok (.adc (.abx 0x1234), []) ∧
    decode [0b01111001, 0x34, 0x12] = .ok (.adc (.aby 0x1234), []) ∧
    decode [0b01100001, 0x34] = .ok (.adc (.izx 0x34), []) ∧
    decode [0b01110001, 0x34] = .ok (.adc (.izy 0x34), []) ∧
    decode [0b11101001, 0x34] = .ok (.sbc (.imm 0x34), []) ∧
    decode [0b11100101, 0x34] = .ok (.sbc (.zp0 0x34), []) ∧
    decode [0b11110101, 0x34] = .ok (.sbc (.zpx 0x34), []) ∧
    decode [0b11101101, 0x34, 0x12] = .ok (.sbc (.abs 0x1234), []) ∧
    decode [0b11111101, 0x34, 0x12] = .ok (.sbc (.abx 0x1234), []) ∧
    decode [0b11111001, 0x34, 0x12] = .ok (.sbc (.aby 0x1234), []) ∧
    decode [0b11100001, 0x34] = .ok (.sbc (.izx 0x34), []) ∧
    decode [0b11110001, 0x34] = .ok (.sbc (.izy 0x34), []) := by
  and_intros <;> rfl

theorem test_decode_logical :
    decode [0b00101001, 0x34] = .ok (.and (.imm 0x34), []) ∧
    decode [0b00100101, 0x34] = .ok (.and (.zp0 0x34), []) ∧
    decode [0b00110101, 0x34] = .ok (.and (.zpx 0x34), []) ∧
    decode [0b00101101, 0x34, 0x12] = .ok (.and (.abs 0x1234), []) ∧
    decode [0b00111101, 0x34, 0x12] = .ok (.and (.abx 0x1234), []) ∧
    decode [0b00111001, 0x34, 0x12] = .ok (.and (.aby 0x1234), []) ∧
    decode [0b00100001, 0x34] = .ok (.and (.izx 0x34), []) ∧
    decode [0b00110001, 0x34] = .ok (.and (.izy 0x34), []) ∧
    decode [0b00001001, 0x34] = .ok (.ora (.imm 0x34), []) ∧
    decode [0b00000101, 0x34] = .ok (.ora (.zp0 0x34), []) ∧
    decode [0b00010101, 0x34] = .ok (.ora (.zpx 0x34), []) ∧
    decode [0b00001101, 0x34, 0x12] = .ok (.ora (.abs 0x1234), []) ∧
    decode [0b00011101, 0x34, 0x12] = .ok (.ora (.abx 0x1234), []) ∧
    decode [0b00011001, 0x34, 0x12] = .ok (.ora (.aby 0x1234), []) ∧
    decode [0b00000001, 0x34] = .ok (.ora (.izx 0x34), []) ∧
    decode [0b00010001, 0x34] = .ok (.ora (.izy 0x34), []) ∧
    decode [0b01001001, 0x34] = .ok (.eor (.imm 0x34), []) ∧
    decode [0b01000101, 0x34] = .ok (.eor (.zp0 0x34), []) ∧
    decode [0b01010101, 0x34] = .ok (.eor (.zpx 0x34), []) ∧
    decode [0b01001101, 0x34, 0x12] = .ok (.eor (.abs 0x1234), []) ∧
    decode [0b01011101, 0x34, 0x12] = .ok (.eor (.abx 0x1234), []) ∧
    decode [0b01011001, 0x34, 0x12] = .ok (.eor (.aby 0x1234), []) ∧
    decode [0b01000001, 0x34] = .ok (.eor (.izx 0x34), []) ∧
    decode [0b01010001, 0x34] = .ok (.eor (.izy 0x34), []) ∧
    decode [0b00100100, 0x34] = .ok (.bit (.zp0 0x34), []) ∧
    decode [0b00101100, 0x34, 0x12] = .ok (.bit (.abs 0x1234), []) := by
  and_intros <;> rfl

theorem test_decode_shift_rotate :
    decode [0b00001010] = .ok (.asl .imp, []) ∧
    decode [0b00000110, 0x34] = .ok (.asl (.zp0 0x34), []) ∧
    decode [0b00010110, 0x34] = .ok (.asl (.zpx 0x34), []) ∧
    decode [0b00001110, 0x34, 0x12] = .ok (.asl (.abs 0x1234), []) ∧
    decode [0b00011110, 0x34, 0x12] = .ok (.asl (.abx 0x1234), []) ∧
    decode [0b01001010] = .ok (.lsr .imp, []) ∧
    decode [0b01000110, 0x34] = .ok (.lsr (.zp0 0x34), []) ∧
    decode [0b01010110, 0x34] = .ok (.lsr (.zpx 0x34), []) ∧
    decode [0b01001110, 0x34, 0x12] = .ok (.lsr (.abs 0x1234), []) ∧
    decode [0b01011110, 0x34, 0x12] = .ok (.lsr (.abx 0x1234), []) ∧
    decode [0b00101010] = .ok (.rol .imp, []) ∧
    decode [0b00100110, 0x34] = .ok (.rol (.zp0 0x34), []) ∧
    decode [0b00110110, 0x34] = .ok (.rol (.zpx 0x34), []) ∧
    decode [0b00101110, 0x34, 0x12] = .ok (.rol (.abs 0x1234), []) ∧
    decode [0b00111110, 0x34, 0x12] = .ok (.rol (.abx 0x1234), []) ∧
    decode [0b01101010] = .ok (.ror .imp, []) ∧
    decode [0b01100110, 0x34] = .ok (.ror (.zp0 0x34), []) ∧
    decode [0b01110110, 0x34] = .ok (.ror (.zpx 0x34), []) ∧
    decode [0b01101110, 0x34, 0x12] = .ok (.ror (.abs 0x1234), []) ∧
    decode [0b01111110, 0x34, 0x12] = .ok (.ror (.abx 0x1234), []) := by
  and_intros <;> rfl

theorem test_decode_compare_incdec :
    decode [0b11001001, 0x34] = .ok (.cmp (.imm 0x34), []) ∧
    decode [0b11000101, 0x34] = .ok (.cmp (.zp0 0x34), []) ∧
    decode [0b11010101, 0x34] = .ok (.cmp (.zpx 0x34), []) ∧
    decode [0b11001101, 0x34, 0x12] = .ok (.cmp (.abs 0x1234), []) ∧
    decode [0b11011101, 0x34, 0x12] = .ok (.cmp (.abx 0x1234), []) ∧
    decode [0b11011001, 0x34, 0x12] = .ok (.cmp (.aby 0x1234), []) ∧
    decode [0b11000001, 0x34] = .ok (.cmp (.izx 0x34), []) ∧
    decode [0b11010001, 0x34] = .ok (.cmp (.izy 0x34), []) ∧
    decode [0b11100000, 0x34] = .ok (.cpx (.imm 0x34), []) ∧
    decode [0b11100100, 0x34] = .ok (.cpx (.zp0 0x34), []) ∧
    decode [0b11101100, 0x34, 0x12] = .ok (.cpx (.abs 0x1234), []) ∧
    decode [0b11000000, 0x34] = .ok (.cpy (.imm 0x34), []) ∧
    decode [0b11000100, 0x34] = .ok (.cpy (.zp0 0x34), []) ∧
    decode [0b11001100, 0x34, 0x12] = .ok (.cpy (.abs 0x1234), []) ∧
    decode [0b11100110, 0x34] = .ok (.inc (.zp0 0x34), []) ∧
    decode [0b11110110, 0x34] = .ok (.inc (.zpx 0x34), []) ∧
    decode [0b11101110, 0x34, 0x12] = .ok (.inc (.abs 0x1234), []) ∧
    decode [0b11111110, 0x34, 0x12] = .ok (.inc (.abx 0x1234), []) ∧
    decode [0b11000110, 0x34] = .ok (.dec (.zp0 0x34), []) ∧
    decode [0b11010110, 0x34] = .ok (.dec (.zpx 0x34), []) ∧
    decode [0b11001110, 0x34, 0x12] = .ok (.dec (.abs 0x1234), []) ∧
    decode [0b11011110, 0x34, 0x12] = .ok (.dec (.abx 0x1234), []) ∧
    decode [0b11101000] = .ok (.inx, []) ∧
    decode [0b11001000] = .ok (.iny, []) ∧
    decode [0b11001010] = .ok (.dex, []) ∧
    decode [0b10001000] = .ok (.dey, []) := by
  and_intros <;> rfl

theorem test_decode_load :
    decode [0b10101001, 0x34] = .ok (.lda (.imm 0x34), []) ∧
    decode [0b10100101, 0x34] = .ok (.lda (.zp0 0x34), []) ∧
    decode [0b10110101, 0x34] = .ok (.lda (.zpx 0x34), []) ∧
    decode [0b10101101, 0x34, 0x12] = .ok (.lda (.abs 0x1234), []) ∧
    decode [0b10111101, 0x34, 0x12] = .ok (.lda (.abx 0x1234), []) ∧
    decode [0b10111001, 0x34, 0x12] = .ok (.lda (.aby 0x1234), []) ∧
    decode [0b10100001, 0x34] = .ok (.lda (.izx 0x34), []) ∧
    decode [0b10110001, 0x34] = .ok (.lda (.izy 0x34), []) ∧
    decode [0b10100010, 0x34] = .ok (.ldx (.imm 0x34), []) ∧
    decode [0b10100110, 0x34] = .ok (.ldx (.zp0 0x34), []) ∧
    decode [0b10110110, 0x34] = .ok (.ldx (.zpy 0x34), []) ∧
    decode [0b10101110, 0x34, 0x12] = .ok (.ldx (.abs 0x1234), []) ∧
    decode [0b10111110, 0x34, 0x12] = .ok (.ldx (.aby 0x1234), []) ∧
    decode [0b10100000, 0x34] = .ok (.ldy (.imm 0x34), []) ∧
    decode [0b10100100, 0x34] = .ok (.ldy (.zp0 0x34), []) ∧
    decode [0b10110100, 0x34] = .ok (.ldy (.zpx 0x34), []) ∧
    decode [0b10101100, 0x34, 0x12] = .ok (.ldy (.abs 0x1234), []) ∧
    decode [0b10111100, 0x34, 0x12] = .ok (.ldy (.abx 0x1234), []) := by
  and_intros <;> rfl

theorem test_decode_store :
    decode [0b10000101, 0x34] = .ok (.sta (.zp0 0x34), []) ∧
    decode [0b10010101, 0x34] = .ok (.sta (.zpx 0x34), []) ∧
    decode [0b10001101, 0x34, 0x12] = .ok (.sta (.abs 0x1234), []) ∧
    decode [0b10011101, 0x34, 0x12] = .ok (.sta (.abx 0x1234), []) ∧
    decode [0b10011001, 0x34, 0x12] = .ok (.sta (.aby 0x1234), []) ∧
    decode [0b10000001, 0x34] = .ok (.sta (.izx 0x34), []) ∧
    decode [0b10010001, 0x34] = .ok (.sta (.izy 0x34), []) ∧
    decode [0b10000110, 0x34] = .ok (.stx (.zp0 0x34), []) ∧
    decode [0b10010110, 0x34] = .ok (.stx (.zpy 0x34), []) ∧
    decode [0b10001110, 0x34, 0x12] = .ok (.stx (.abs 0x1234), []) ∧
    decode [0b10000100, 0x34] = .ok (.sty (.zp0 0x34), []) ∧
    decode [0b10010100, 0x34] = .ok (.sty (.zpx 0x34), []) ∧
    decode [0b10001100, 0x34, 0x12] = .ok (.sty (.abs 0x1234), []) := by
  and_intros <;> rfl

theorem test_decode_transfer :
    decode [0b10101010] = .ok (.tax, []) ∧
    decode [0b10101000] = .ok (.tay, []) ∧
    decode [0b10001010] = .ok (.txa, []) ∧
    decode [0b10011000] = .ok (.tya, []) ∧
    decode [0b10111010] = .ok (.tsx, []) ∧
    decode [0b10011010] = .ok (.txs, []) := by
  and_intros <;> rfl

theorem test_decode_stack :
    decode [0b01001000] = .ok (.pha, []) ∧
    decode [0b01101000] = .ok (.pla, []) ∧
    decode [0b00001000] = .ok (.php, []) ∧
    decode [0b00101000] = .ok (.plp, []) := by
  and_intros <;> rfl

theorem test_decode_branch :
    decode [0b10010000, 0x34] = .ok (.bcc 0x34, []) ∧
    decode [0b10110000, 0x34] = .ok (.bcs 0x34, []) ∧
    decode [0b11110000, 0x34] = .ok (.beq 0x34, []) ∧
    decode [0b11010000, 0x34] = .ok (.bne 0x34, []) ∧
    decode [0b00110000, 0x34] = .ok (.bmi 0x34, []) ∧
    decode [0b00010000, 0x34] = .ok (.bpl 0x34, []) ∧
    decode [0b01010000, 0x34] = .ok (.bvc 0x34, []) ∧
    decode [0b01110000, 0x34] = .ok (.bvs 0x34, []) := by
  and_intros <;> rfl

theorem test_decode_jump :
    decode [0b01001100, 0x34, 0x12] = .ok (.jmp (.abs 0x1234), []) ∧
    decode [0b01101100, 0x34, 0x12] = .ok (.jmp (.ind 0x1234), []) ∧
    decode [0b00100000, 0x34, 0x12] = .ok (.jsr 0x1234, []) ∧
    decode [0b01100000] = .ok (.rts, []) := by
  and_intros <;> rfl

theorem test_decode_break_flags_nop :
    decode [0b00000000] = .ok (.brk, []) ∧
    decode [0b01000000] = .ok (.rti, []) ∧
    decode [0b00011000] = .ok (.clc, []) ∧
    decode [0b00111000] = .ok (.sec, []) ∧
    decode [0b01011000] = .ok (.cli, []) ∧
    decode [0b01111000] = .ok (.sei, []) ∧
    decode [0b11011000] = .ok (.cld, []) ∧
    decode [0b11111000] = .ok (.sed, []) ∧
    decode [0b10111000] = .ok (.clv, []) ∧
    decode [0b11101010] = .ok (.nop, []) := by
  and_intros <;> rfl

theorem test_decode_und :
    decode [0b00000010] = .ok (.undImp 0x02, []) ∧ decode [0b10000000, 0x34] = .ok (.undImp 0x80, [0x34]) ∧
    decode [0b11111111] = .ok (.undImp 0xFF, []) ∧
    decode [0b00011100, 0x34, 0x12] = .ok (.undAbx 0x1C 0x1234, []) ∧
    decode [0b11111100, 0x34, 0x12] = .ok (.undAbx 0xFC 0x1234, []) := by
  and_intros <;> rfl

theorem test_decode_refuses_short_lists :
    decode [] = .error .noOpcode ∧ decode [0xA9] = .error (.truncated 0xA9) ∧
    decode [0x4C, 0x34] = .error (.truncated 0x4C) := by
  and_intros <;> rfl

/-- The undocumented bytes are exactly those that the map leaves blank (R66 to R68): 151 documented, 99 and 6 not. -/
theorem test_undocumented_bytes_are_the_blanks :
    ((List.range 256).filter fun n => (documented (BitVec.ofNat 8 n) 0 0).isNone) =
      ((List.range 256).filter fun n =>
        (Config.undocImp ++ Config.undocAbx).contains (BitVec.ofNat 8 n)) := by
  decide +kernel

theorem test_table_word :
    decodeTableWord 16 0x44A9 = some (.lda (.imm 0x44)) ∧ decodeTableWord 24 0x12346C = some (.jmp (.ind 0x1234)) ∧
    decodeTableWord 8 0x6C = some (.jmp (.ind 0x0000)) ∧ decodeTableWord 8 0x02 = some (.undImp 0x02) := by
  decide

/-! ## Single steps (spec/95_test_vectors.md part 2): registers A X Y SP P, `pc`, cycles, and bytes written -/

/-- The start state of a vector: bytes at `pc`, listed memory bytes, registers A X Y SP P. -/
def place (pc : Word) (code : List Byte) (cells : List (Word × Byte)) (a x y sp p : Byte) : State :=
  cells.foldl (fun s c => s.write c.1 c.2)
    ({ State.reset with a := a, x := x, y := y, sp := sp, p := p, pc := pc, countdown := 0 }.writeBytes pc code)

/-- What a vector lists of an outcome: registers, `pc`, cycles, and the bytes at some addresses. -/
def seen (o : Outcome) (at_ : List Word) : Option (List Byte × Word × Nat × List Byte) :=
  match o with
  | .next t => some ([t.a, t.x, t.y, t.sp, t.p], t.pc, t.countdown + 1, at_.map t.read)
  | _ => none


/-- `ADC #$09 with Decimal set` -/
theorem test_adc_1 :
    seen (step (place 0x0600 [0x69, 0x09] [] 0x09 0x00 0x00 0xFD 0x28)) [] =
      some ([0x12, 0x00, 0x00, 0xFD, 0x28], 0x0602, 2, []) := by decide

/-- `ADC $12F0,X` -/
theorem test_adc_2 :
    seen (step (place 0x0600 [0x7D, 0xF0, 0x12] [(0x1300, 0x02)] 0x01 0x10 0x00 0xFD 0x21)) [] =
      some ([0x04, 0x10, 0x00, 0xFD, 0x20], 0x0603, 5, []) := by decide

/-- `SBC #$B0` -/
theorem test_sbc_1 :
    seen (step (place 0x0600 [0xE9, 0xB0] [] 0x50 0x00 0x00 0xFD 0x21)) [] =
      some ([0xA0, 0x00, 0x00, 0xFD, 0xE0], 0x0602, 2, []) := by decide

/-- `SBC ($40),Y` -/
theorem test_sbc_2 :
    seen (step (place 0x0600 [0xF1, 0x40] [(0x0040, 0xFF), (0x0041, 0x02), (0x0300, 0x01)] 0x10 0x00 0x01 0xFD 0x21)) [] =
      some ([0x0F, 0x00, 0x01, 0xFD, 0x21], 0x0602, 6, []) := by decide

/-- `AND #$0F` -/
theorem test_and_1 :
    seen (step (place 0x0600 [0x29, 0x0F] [] 0xF0 0x00 0x00 0xFD 0x20)) [] =
      some ([0x00, 0x00, 0x00, 0xFD, 0x22], 0x0602, 2, []) := by decide

/-- `AND #$F0` -/
theorem test_and_2 :
    seen (step (place 0x0600 [0x29, 0xF0] [] 0xF5 0x00 0x00 0xFD 0x23)) [] =
      some ([0xF0, 0x00, 0x00, 0xFD, 0xA1], 0x0602, 2, []) := by decide

/-- `ORA #$00` -/
theorem test_ora_1 :
    seen (step (place 0x0600 [0x09, 0x00] [] 0x00 0x00 0x00 0xFD 0xE1)) [] =
      some ([0x00, 0x00, 0x00, 0xFD, 0x63], 0x0602, 2, []) := by decide

/-- `ORA $12F0,Y` -/
theorem test_ora_2 :
    seen (step (place 0x0600 [0x19, 0xF0, 0x12] [(0x1310, 0x30)] 0x0F 0x00 0x20 0xFD 0x20)) [] =
      some ([0x3F, 0x00, 0x20, 0xFD, 0x20], 0x0603, 5, []) := by decide

/-- `EOR #$FF` -/
theorem test_eor_1 :
    seen (step (place 0x0600 [0x49, 0xFF] [] 0x0F 0x00 0x00 0xFD 0x20)) [] =
      some ([0xF0, 0x00, 0x00, 0xFD, 0xA0], 0x0602, 2, []) := by decide

/-- `EOR ($40,X)` -/
theorem test_eor_2 :
    seen (step (place 0x0600 [0x41, 0x40] [(0x0042, 0x00), (0x0043, 0x03), (0x0300, 0x55)] 0xAA 0x02 0x00 0xFD 0x20)) [] =
      some ([0xFF, 0x02, 0x00, 0xFD, 0xA0], 0x0602, 6, []) := by decide

/-- `BIT $10` -/
theorem test_bit_1 :
    seen (step (place 0x0600 [0x24, 0x10] [(0x0010, 0xC0)] 0x0F 0x00 0x00 0xFD 0x20)) [] =
      some ([0x0F, 0x00, 0x00, 0xFD, 0xE2], 0x0602, 3, []) := by decide

/-- `BIT $1234` -/
theorem test_bit_2 :
    seen (step (place 0x0600 [0x2C, 0x34, 0x12] [(0x1234, 0x40)] 0x40 0x00 0x00 0xFD 0x20)) [] =
      some ([0x40, 0x00, 0x00, 0xFD, 0x60], 0x0603, 4, []) := by decide

/-- `ASL A` -/
theorem test_asl_1 :
    seen (step (place 0x0600 [0x0A] [] 0x40 0x00 0x00 0xFD 0x21)) [] =
      some ([0x80, 0x00, 0x00, 0xFD, 0xA0], 0x0601, 2, []) := by decide

/-- `ASL $10` -/
theorem test_asl_2 :
    seen (step (place 0x0600 [0x06, 0x10] [(0x0010, 0xC0)] 0x55 0x00 0x00 0xFD 0x20)) [0x0010] =
      some ([0x55, 0x00, 0x00, 0xFD, 0xA1], 0x0602, 5, [0x80]) := by decide

/-- `LSR A` -/
theorem test_lsr_1 :
    seen (step (place 0x0600 [0x4A] [] 0x01 0x00 0x00 0xFD 0x20)) [] =
      some ([0x00, 0x00, 0x00, 0xFD, 0x23], 0x0601, 2, []) := by decide

/-- `LSR $10,X` -/
theorem test_lsr_2 :
    seen (step (place 0x0600 [0x56, 0x10] [(0x0011, 0x03)] 0x00 0x01 0x00 0xFD 0x20)) [0x0011] =
      some ([0x00, 0x01, 0x00, 0xFD, 0x21], 0x0602, 6, [0x01]) := by decide

/-- `ROL A` -/
theorem test_rol_1 :
    seen (step (place 0x0600 [0x2A] [] 0x80 0x00 0x00 0xFD 0x21)) [] =
      some ([0x01, 0x00, 0x00, 0xFD, 0x21], 0x0601, 2, []) := by decide

/-- `ROL $1234` -/
theorem test_rol_2 :
    seen (step (place 0x0600 [0x2E, 0x34, 0x12] [(0x1234, 0x40)] 0x00 0x00 0x00 0xFD 0x21)) [0x1234] =
      some ([0x00, 0x00, 0x00, 0xFD, 0xA0], 0x0603, 6, [0x81]) := by decide

/-- `ROR A` -/
theorem test_ror_1 :
    seen (step (place 0x0600 [0x6A] [] 0x01 0x00 0x00 0xFD 0x21)) [] =
      some ([0x80, 0x00, 0x00, 0xFD, 0xA1], 0x0601, 2, []) := by decide

/-- `ROR $12F0,X` -/
theorem test_ror_2 :
    seen (step (place 0x0600 [0x7E, 0xF0, 0x12] [(0x1300, 0x02)] 0x00 0x10 0x00 0xFD 0x21)) [0x1300] =
      some ([0x00, 0x10, 0x00, 0xFD, 0xA0], 0x0603, 7, [0x81]) := by decide

/-- `CMP #$7F` -/
theorem test_cmp_1 :
    seen (step (place 0x0600 [0xC9, 0x7F] [] 0x80 0x00 0x00 0xFD 0x20)) [] =
      some ([0x80, 0x00, 0x00, 0xFD, 0x21], 0x0602, 2, []) := by decide

/-- `CMP $12F0,X` -/
theorem test_cmp_2 :
    seen (step (place 0x0600 [0xDD, 0xF0, 0x12] [(0x1300, 0x10)] 0x10 0x10 0x00 0xFD 0x20)) [] =
      some ([0x10, 0x10, 0x00, 0xFD, 0x23], 0x0603, 5, []) := by decide

/-- `CPX #$10` -/
theorem test_cpx_1 :
    seen (step (place 0x0600 [0xE0, 0x10] [] 0x00 0x0F 0x00 0xFD 0x20)) [] =
      some ([0x00, 0x0F, 0x00, 0xFD, 0xA0], 0x0602, 2, []) := by decide

/-- `CPX $10` -/
theorem test_cpx_2 :
    seen (step (place 0x0600 [0xE4, 0x10] [(0x0010, 0x01)] 0x00 0xFF 0x00 0xFD 0x20)) [] =
      some ([0x00, 0xFF, 0x00, 0xFD, 0xA1], 0x0602, 3, []) := by decide

/-- `CPY #$00` -/
theorem test_cpy_1 :
    seen (step (place 0x0600 [0xC0, 0x00] [] 0x00 0x00 0x00 0xFD 0x20)) [] =
      some ([0x00, 0x00, 0x00, 0xFD, 0x23], 0x0602, 2, []) := by decide

/-- `CPY $1234` -/
theorem test_cpy_2 :
    seen (step (place 0x0600 [0xCC, 0x34, 0x12] [(0x1234, 0x80)] 0x00 0x00 0x7F 0xFD 0x20)) [] =
      some ([0x00, 0x00, 0x7F, 0xFD, 0xA0], 0x0603, 4, []) := by decide

/-- `INC $10` -/
theorem test_inc_1 :
    seen (step (place 0x0600 [0xE6, 0x10] [(0x0010, 0x7F)] 0x00 0x00 0x00 0xFD 0x20)) [0x0010] =
      some ([0x00, 0x00, 0x00, 0xFD, 0xA0], 0x0602, 5, [0x80]) := by decide

/-- `INC $12F0,X` -/
theorem test_inc_2 :
    seen (step (place 0x0600 [0xFE, 0xF0, 0x12] [(0x1300, 0x00)] 0x00 0x10 0x00 0xFD 0x20)) [0x1300] =
      some ([0x00, 0x10, 0x00, 0xFD, 0x20], 0x0603, 7, [0x01]) := by decide

/-- `DEC $10` -/
theorem test_dec_1 :
    seen (step (place 0x0600 [0xC6, 0x10] [(0x0010, 0x00)] 0x00 0x00 0x00 0xFD 0x20)) [0x0010] =
      some ([0x00, 0x00, 0x00, 0xFD, 0xA0], 0x0602, 5, [0xFF]) := by decide

/-- `DEC $1234` -/
theorem test_dec_2 :
    seen (step (place 0x0600 [0xCE, 0x34, 0x12] [(0x1234, 0x80)] 0x00 0x00 0x00 0xFD 0x20)) [0x1234] =
      some ([0x00, 0x00, 0x00, 0xFD, 0x20], 0x0603, 6, [0x7F]) := by decide

/-- `INX` -/
theorem test_inx_1 :
    seen (step (place 0x0600 [0xE8] [] 0x00 0xFF 0x00 0xFD 0x20)) [] =
      some ([0x00, 0x00, 0x00, 0xFD, 0x22], 0x0601, 2, []) := by decide

/-- `INY` -/
theorem test_iny_1 :
    seen (step (place 0x0600 [0xC8] [] 0x00 0x00 0x00 0xFD 0x22)) [] =
      some ([0x00, 0x00, 0x01, 0xFD, 0x20], 0x0601, 2, []) := by decide

/-- `DEX` -/
theorem test_dex_1 :
    seen (step (place 0x0600 [0xCA] [] 0x00 0x00 0x00 0xFD 0x20)) [] =
      some ([0x00, 0xFF, 0x00, 0xFD, 0xA0], 0x0601, 2, []) := by decide

/-- `DEY` -/
theorem test_dey_1 :
    seen (step (place 0x0600 [0x88] [] 0x00 0x00 0x80 0xFD 0xA0)) [] =
      some ([0x00, 0x00, 0x7F, 0xFD, 0x20], 0x0601, 2, []) := by decide

/-- `LDA ($FE,X)` -/
theorem test_lda_1 :
    seen (step (place 0x0600 [0xA1, 0xFE] [(0x0000, 0x03), (0x00FF, 0x00), (0x0100, 0x09), (0x0300, 0x5B)] 0x00 0x01 0x00 0xFD 0x20)) [] =
      some ([0x5B, 0x01, 0x00, 0xFD, 0x20], 0x0602, 6, []) := by decide

/-- `LDA ($40),Y` -/
theorem test_lda_2 :
    seen (step (place 0x0600 [0xB1, 0x40] [(0x0040, 0xF8), (0x0041, 0x03), (0x0408, 0x5D)] 0x00 0x00 0x10 0xFD 0x20)) [] =
      some ([0x5D, 0x00, 0x10, 0xFD, 0x20], 0x0602, 6, []) := by decide

/-- `LDX $80,Y` -/
theorem test_ldx_1 :
    seen (step (place 0x0600 [0xB6, 0x80] [(0x0000, 0x44), (0x0100, 0x99)] 0x00 0x00 0x80 0xFD 0x20)) [] =
      some ([0x00, 0x44, 0x80, 0xFD, 0x20], 0x0602, 4, []) := by decide

/-- `LDX $12F0,Y` -/
theorem test_ldx_2 :
    seen (step (place 0x0600 [0xBE, 0xF0, 0x12] [(0x1300, 0x01)] 0x00 0x00 0x10 0xFD 0x20)) [] =
      some ([0x00, 0x01, 0x10, 0xFD, 0x20], 0x0603, 5, []) := by decide

/-- `LDY $10,X` -/
theorem test_ldy_1 :
    seen (step (place 0x0600 [0xB4, 0x10] [(0x0000, 0x80)] 0x00 0xF0 0x00 0xFD 0x20)) [] =
      some ([0x00, 0xF0, 0x80, 0xFD, 0xA0], 0x0602, 4, []) := by decide

/-- `LDY $12F0,X` -/
theorem test_ldy_2 :
    seen (step (place 0x0600 [0xBC, 0xF0, 0x12] [(0x12FF, 0x00)] 0x00 0x0F 0x00 0xFD 0x20)) [] =
      some ([0x00, 0x0F, 0x00, 0xFD, 0x22], 0x0603, 4, []) := by decide

/-- `STA ($40,X)` -/
theorem test_sta_1 :
    seen (step (place 0x0600 [0x81, 0x40] [(0x0040, 0x00), (0x0041, 0x02)] 0x99 0x00 0x00 0xFD 0x20)) [0x0200] =
      some ([0x99, 0x00, 0x00, 0xFD, 0x20], 0x0602, 6, [0x99]) := by decide

/-- `STA $1234,Y` -/
theorem test_sta_2 :
    seen (step (place 0x0600 [0x99, 0x34, 0x12] [] 0x12 0x00 0x01 0xFD 0x20)) [0x1235] =
      some ([0x12, 0x00, 0x01, 0xFD, 0x20], 0x0603, 5, [0x12]) := by decide

/-- `STX $10,Y` -/
theorem test_stx_1 :
    seen (step (place 0x0600 [0x96, 0x10] [] 0x00 0x33 0xF1 0xFD 0x20)) [0x0001] =
      some ([0x00, 0x33, 0xF1, 0xFD, 0x20], 0x0602, 4, [0x33]) := by decide

/-- `STX $1234` -/
theorem test_stx_2 :
    seen (step (place 0x0600 [0x8E, 0x34, 0x12] [] 0x00 0x80 0x00 0xFD 0x20)) [0x1234] =
      some ([0x00, 0x80, 0x00, 0xFD, 0x20], 0x0603, 4, [0x80]) := by decide

/-- `STY $10,X` -/
theorem test_sty_1 :
    seen (step (place 0x0600 [0x94, 0x10] [] 0x00 0x01 0x44 0xFD 0x20)) [0x0011] =
      some ([0x00, 0x01, 0x44, 0xFD, 0x20], 0x0602, 4, [0x44]) := by decide

/-- `STY $10` -/
theorem test_sty_2 :
    seen (step (place 0x0600 [0x84, 0x10] [] 0x00 0x00 0x00 0xFD 0x20)) [0x0010] =
      some ([0x00, 0x00, 0x00, 0xFD, 0x20], 0x0602, 3, [0x00]) := by decide

/-- `TAX` -/
theorem test_tax_1 :
    seen (step (place 0x0600 [0xAA] [] 0x80 0x01 0x00 0xFD 0x20)) [] =
      some ([0x80, 0x80, 0x00, 0xFD, 0xA0], 0x0601, 2, []) := by decide

/-- `TAY` -/
theorem test_tay_1 :
    seen (step (place 0x0600 [0xA8] [] 0x00 0x00 0x01 0xFD 0x20)) [] =
      some ([0x00, 0x00, 0x00, 0xFD, 0x22], 0x0601, 2, []) := by decide

/-- `TXA` -/
theorem test_txa_1 :
    seen (step (place 0x0600 [0x8A] [] 0xFF 0x00 0x00 0xFD 0xA0)) [] =
      some ([0x00, 0x00, 0x00, 0xFD, 0x22], 0x0601, 2, []) := by decide

/-- `TYA` -/
theorem test_tya_1 :
    seen (step (place 0x0600 [0x98] [] 0x00 0x00 0x7F 0xFD 0x22)) [] =
      some ([0x7F, 0x00, 0x7F, 0xFD, 0x20], 0x0601, 2, []) := by decide

/-- `TSX` -/
theorem test_tsx_1 :
    seen (step (place 0x0600 [0xBA] [] 0x00 0x01 0x00 0x00 0x20)) [] =
      some ([0x00, 0x00, 0x00, 0x00, 0x20], 0x0601, 2, []) := by decide

/-- `TSX` -/
theorem test_tsx_2 :
    seen (step (place 0x0600 [0xBA] [] 0x00 0x01 0x00 0x80 0x22)) [] =
      some ([0x00, 0x80, 0x00, 0x80, 0x22], 0x0601, 2, []) := by decide

/-- `TXS` -/
theorem test_txs_1 :
    seen (step (place 0x0600 [0x9A] [] 0x00 0x00 0x00 0xFD 0xA0)) [] =
      some ([0x00, 0x00, 0x00, 0x00, 0xA0], 0x0601, 2, []) := by decide

/-- `TXS` -/
theorem test_txs_2 :
    seen (step (place 0x0600 [0x9A] [] 0x00 0xFF 0x00 0x10 0x20)) [] =
      some ([0x00, 0xFF, 0x00, 0xFF, 0x20], 0x0601, 2, []) := by decide

/-- `PHA` -/
theorem test_pha_1 :
    seen (step (place 0x0600 [0x48] [] 0x42 0x00 0x00 0x00 0x20)) [0x0100] =
      some ([0x42, 0x00, 0x00, 0xFF, 0x20], 0x0601, 3, [0x42]) := by decide

/-- `PLA` -/
theorem test_pla_1 :
    seen (step (place 0x0600 [0x68] [(0x01FD, 0x00)] 0x11 0x00 0x00 0xFC 0x20)) [] =
      some ([0x00, 0x00, 0x00, 0xFD, 0x22], 0x0601, 4, []) := by decide

/-- `PLA` -/
theorem test_pla_2 :
    seen (step (place 0x0600 [0x68] [(0x0100, 0x80)] 0x11 0x00 0x00 0xFF 0x20)) [] =
      some ([0x80, 0x00, 0x00, 0x00, 0xA0], 0x0601, 4, []) := by decide

/-- `PHP` -/
theorem test_php_1 :
    seen (step (place 0x0600 [0x08] [] 0x00 0x00 0x00 0xFD 0xB1)) [0x01FD] =
      some ([0x00, 0x00, 0x00, 0xFC, 0xA1], 0x0601, 3, [0xB1]) := by decide

/-- `PHP` -/
theorem test_php_2 :
    seen (step (place 0x0600 [0x08] [] 0x00 0x00 0x00 0xFD 0x00)) [0x01FD] =
      some ([0x00, 0x00, 0x00, 0xFC, 0x00], 0x0601, 3, [0x30]) := by decide

/-- `PLP` -/
theorem test_plp_1 :
    seen (step (place 0x0600 [0x28] [(0x01FD, 0x00)] 0x00 0x00 0x00 0xFC 0xFF)) [] =
      some ([0x00, 0x00, 0x00, 0xFD, 0x20], 0x0601, 4, []) := by decide

/-- `PLP` -/
theorem test_plp_2 :
    seen (step (place 0x0600 [0x28] [(0x01FD, 0x10)] 0x00 0x00 0x00 0xFC 0x20)) [] =
      some ([0x00, 0x00, 0x00, 0xFD, 0x30], 0x0601, 4, []) := by decide

/-- `BCC +4` -/
theorem test_bcc_1 :
    seen (step (place 0x0200 [0x90, 0x04] [] 0x00 0x00 0x00 0xFD 0x20)) [] =
      some ([0x00, 0x00, 0x00, 0xFD, 0x20], 0x0206, 3, []) := by decide

/-- `BCC +4` -/
theorem test_bcc_2 :
    seen (step (place 0x0200 [0x90, 0x04] [] 0x00 0x00 0x00 0xFD 0x21)) [] =
      some ([0x00, 0x00, 0x00, 0xFD, 0x21], 0x0202, 2, []) := by decide

/-- `BCS -2` -/
theorem test_bcs_1 :
    seen (step (place 0x0200 [0xB0, 0xFE] [] 0x00 0x00 0x00 0xFD 0x21)) [] =
      some ([0x00, 0x00, 0x00, 0xFD, 0x21], 0x0200, 3, []) := by decide

/-- `BEQ +32` -/
theorem test_beq_1 :
    seen (step (place 0x02F0 [0xF0, 0x20] [] 0x00 0x00 0x00 0xFD 0x22)) [] =
      some ([0x00, 0x00, 0x00, 0xFD, 0x22], 0x0312, 4, []) := by decide

/-- `BNE +0` -/
theorem test_bne_1 :
    seen (step (place 0x06FE [0xD0, 0x00] [] 0x00 0x00 0x00 0xFD 0x20)) [] =
      some ([0x00, 0x00, 0x00, 0xFD, 0x20], 0x0700, 3, []) := by decide

/-- `BNE -3` -/
theorem test_bne_2 :
    seen (step (place 0x0700 [0xD0, 0xFD] [] 0x00 0x00 0x00 0xFD 0x20)) [] =
      some ([0x00, 0x00, 0x00, 0xFD, 0x20], 0x06FF, 4, []) := by decide

/-- `BMI -128` -/
theorem test_bmi_1 :
    seen (step (place 0x0300 [0x30, 0x80] [] 0x00 0x00 0x00 0xFD 0xA0)) [] =
      some ([0x00, 0x00, 0x00, 0xFD, 0xA0], 0x0282, 4, []) := by decide

/-- `BPL +127` -/
theorem test_bpl_1 :
    seen (step (place 0x0300 [0x10, 0x7F] [] 0x00 0x00 0x00 0xFD 0x20)) [] =
      some ([0x00, 0x00, 0x00, 0xFD, 0x20], 0x0381, 3, []) := by decide

/-- `BVC +32` -/
theorem test_bvc_1 :
    seen (step (place 0xFFF0 [0x50, 0x20] [] 0x00 0x00 0x00 0xFD 0x20)) [] =
      some ([0x00, 0x00, 0x00, 0xFD, 0x20], 0x0012, 4, []) := by decide

/-- `BVS +16` -/
theorem test_bvs_1 :
    seen (step (place 0x0200 [0x70, 0x10] [] 0x00 0x00 0x00 0xFD 0x20)) [] =
      some ([0x00, 0x00, 0x00, 0xFD, 0x20], 0x0202, 2, []) := by decide

/-- `BVS +16` -/
theorem test_bvs_2 :
    seen (step (place 0x0200 [0x70, 0x10] [] 0x00 0x00 0x00 0xFD 0x60)) [] =
      some ([0x00, 0x00, 0x00, 0xFD, 0x60], 0x0212, 3, []) := by decide

/-- `JMP ($30FF)` -/
theorem test_jmp_1 :
    seen (step (place 0x0600 [0x6C, 0xFF, 0x30] [(0x3000, 0x50), (0x30FF, 0x80), (0x3100, 0x40)] 0x00 0x00 0x00 0xFD 0x20)) [] =
      some ([0x00, 0x00, 0x00, 0xFD, 0x20], 0x5080, 5, []) := by decide

/-- `JMP $0600` -/
theorem test_jmp_2 :
    seen (step (place 0x0700 [0x4C, 0x00, 0x06] [] 0x00 0x00 0x00 0xFD 0x20)) [] =
      some ([0x00, 0x00, 0x00, 0xFD, 0x20], 0x0600, 3, []) := by decide

/-- `JSR $0700` -/
theorem test_jsr_1 :
    seen (step (place 0x0600 [0x20, 0x00, 0x07] [] 0x00 0x00 0x00 0x00 0x20)) [0x0100, 0x01FF] =
      some ([0x00, 0x00, 0x00, 0xFE, 0x20], 0x0700, 6, [0x06, 0x02]) := by decide

/-- `JSR $1234` -/
theorem test_jsr_2 :
    seen (step (place 0xFFFE [0x20, 0x34, 0x12] [] 0x00 0x00 0x00 0xFD 0x20)) [0x01FD, 0x01FC] =
      some ([0x00, 0x00, 0x00, 0xFB, 0x20], 0x1234, 6, [0x00, 0x00]) := by decide

/-- `RTS` -/
theorem test_rts_1 :
    seen (step (place 0x0700 [0x60] [(0x01FC, 0x02), (0x01FD, 0x06)] 0x00 0x00 0x00 0xFB 0x20)) [] =
      some ([0x00, 0x00, 0x00, 0xFD, 0x20], 0x0603, 6, []) := by decide

/-- `RTS` -/
theorem test_rts_2 :
    seen (step (place 0x0700 [0x60] [(0x0100, 0xFF), (0x01FF, 0xFF)] 0x00 0x00 0x00 0xFE 0x20)) [] =
      some ([0x00, 0x00, 0x00, 0x00, 0x20], 0x0000, 6, []) := by decide

/-- `BRK` -/
theorem test_brk_1 :
    seen (step (place 0x0600 [0x00] [(0xFFFE, 0x34), (0xFFFF, 0x12)] 0x00 0x00 0x00 0x01 0x24)) [0x0101, 0x0100, 0x01FF] =
      some ([0x00, 0x00, 0x00, 0xFE, 0x24], 0x1234, 7, [0x06, 0x02, 0x34]) := by decide

/-- `BRK` -/
theorem test_brk_2 :
    seen (step (place 0xFFFF [0x00] [(0xFFFE, 0x00)] 0x00 0x00 0x00 0xFD 0x00)) [0x01FD, 0x01FC, 0x01FB] =
      some ([0x00, 0x00, 0x00, 0xFA, 0x04], 0x0000, 7, [0x00, 0x01, 0x30]) := by decide

/-- `RTI` -/
theorem test_rti_1 :
    seen (step (place 0x8000 [0x40] [(0x01FB, 0x33), (0x01FC, 0x02), (0x01FD, 0x06)] 0x00 0x00 0x00 0xFA 0x27)) [] =
      some ([0x00, 0x00, 0x00, 0xFD, 0x03], 0x0602, 6, []) := by decide

/-- `RTI` -/
theorem test_rti_2 :
    seen (step (place 0x8000 [0x40] [(0x01FB, 0xFF), (0x01FC, 0x00), (0x01FD, 0x10)] 0x00 0x00 0x00 0xFA 0x24)) [] =
      some ([0x00, 0x00, 0x00, 0xFD, 0xCF], 0x1000, 6, []) := by decide

/-- `CLC` -/
theorem test_clc_1 :
    seen (step (place 0x0600 [0x18] [] 0x00 0x00 0x00 0xFD 0xFF)) [] =
      some ([0x00, 0x00, 0x00, 0xFD, 0xFE], 0x0601, 2, []) := by decide

/-- `SEC` -/
theorem test_sec_1 :
    seen (step (place 0x0600 [0x38] [] 0x00 0x00 0x00 0xFD 0x00)) [] =
      some ([0x00, 0x00, 0x00, 0xFD, 0x01], 0x0601, 2, []) := by decide

/-- `CLI` -/
theorem test_cli_1 :
    seen (step (place 0x0600 [0x58] [] 0x00 0x00 0x00 0xFD 0x24)) [] =
      some ([0x00, 0x00, 0x00, 0xFD, 0x20], 0x0601, 2, []) := by decide

/-- `SEI` -/
theorem test_sei_1 :
    seen (step (place 0x0600 [0x78] [] 0x00 0x00 0x00 0xFD 0x20)) [] =
      some ([0x00, 0x00, 0x00, 0xFD, 0x24], 0x0601, 2, []) := by decide

/-- `CLD` -/
theorem test_cld_1 :
    seen (step (place 0x0600 [0xD8] [] 0x00 0x00 0x00 0xFD 0x28)) [] =
      some ([0x00, 0x00, 0x00, 0xFD, 0x20], 0x0601, 2, []) := by decide

/-- `SED` -/
theorem test_sed_1 :
    seen (step (place 0x0600 [0xF8] [] 0x00 0x00 0x00 0xFD 0x20)) [] =
      some ([0x00, 0x00, 0x00, 0xFD, 0x28], 0x0601, 2, []) := by decide

/-- `CLV` -/
theorem test_clv_1 :
    seen (step (place 0x0600 [0xB8] [] 0x00 0x00 0x00 0xFD 0x60)) [] =
      some ([0x00, 0x00, 0x00, 0xFD, 0x20], 0x0601, 2, []) := by decide

/-- `NOP` -/
theorem test_nop_1 :
    seen (step (place 0x0600 [0xEA] [] 0x12 0x34 0x56 0xFD 0xE3)) [] =
      some ([0x12, 0x34, 0x56, 0xFD, 0xE3], 0x0601, 2, []) := by decide

/-- `.byte $02` -/
theorem test_undImp_1 :
    seen (step (place 0x0600 [0x02] [] 0x12 0x34 0x56 0xFD 0xE3)) [] =
      some ([0x12, 0x34, 0x56, 0xFD, 0xE3], 0x0601, 2, []) := by decide

/-- `.byte $80` -/
theorem test_undImp_2 :
    seen (step (place 0x0600 [0x80, 0xA9] [] 0x00 0x00 0x00 0xFD 0x20)) [] =
      some ([0x00, 0x00, 0x00, 0xFD, 0x20], 0x0601, 2, []) := by decide

/-- `.byte $1C,$F0,$44` -/
theorem test_undAbx_1 :
    seen (step (place 0x0600 [0x1C, 0xF0, 0x44] [] 0x00 0x20 0x00 0xFD 0x20)) [] =
      some ([0x00, 0x20, 0x00, 0xFD, 0x20], 0x0603, 5, []) := by decide

/-- `.byte $1C,$F0,$44` -/
theorem test_undAbx_2 :
    seen (step (place 0x0600 [0x1C, 0xF0, 0x44] [] 0x00 0x00 0x00 0xFD 0x20)) [] =
      some ([0x00, 0x00, 0x00, 0xFD, 0x20], 0x0603, 4, []) := by decide

/-! ## Commands (spec/95_test_vectors.md part 3) -/

/-- The memory of the command vectors: NMI 0x0780, reset 0x1234, IRQ and BRK 0x0700. -/
def vectors : List (Word × Byte) :=
  [(0xFFFA, 0x80), (0xFFFB, 0x07), (0xFFFC, 0x34), (0xFFFD, 0x12), (0xFFFE, 0x00), (0xFFFF, 0x07)]

/-- K1 -/
theorem test_command_reset :
    seen (step { place 0xABCD [] vectors 0x55 0x66 0x77 0x12 0xFF with countdown := 5, inputs := [.command .reset] })
      [] = some ([0x00, 0x00, 0x00, 0xFD, 0x20], 0x1234, 9, []) := by decide

/-- K4 -/
theorem test_command_irq :
    seen (step { place 0x1234 [] vectors 0x01 0x02 0x03 0xFD 0xF3 with inputs := [.command .irq] })
      [0x01FD, 0x01FC, 0x01FB] = some ([0x01, 0x02, 0x03, 0xFA, 0xE7], 0x0700, 8, [0x12, 0x34, 0xE3]) := by decide

/-- K3: the masked IRQ leaves the state as it is. -/
theorem test_command_irq_masked :
    step { place 0x1234 [] vectors 0x01 0x02 0x03 0xFD 0x24 with inputs := [.command .irq] } =
      .next (place 0x1234 [] vectors 0x01 0x02 0x03 0xFD 0x24) := rfl

/-- K6 -/
theorem test_command_nmi :
    seen (step { place 0x1234 [] vectors 0x01 0x02 0x03 0xFD 0x34 with inputs := [.command .nmi] })
      [0x01FD, 0x01FC, 0x01FB] = some ([0x01, 0x02, 0x03, 0xFA, 0x24], 0x0780, 9, [0x12, 0x34, 0x24]) := by decide

/-- K12 -/
theorem test_command_clock_running :
    seen (step { place 0x1234 [] vectors 0x01 0x02 0x03 0xFD 0x20 with countdown := 1 }) [] =
      some ([0x01, 0x02, 0x03, 0xFD, 0x20], 0x1234, 1, []) := by decide

/-- The instruction placed for the next step is what the very next step runs, from the reset state. -/
theorem test_withFetchWord :
    seen (step (State.reset.withFetchWord 16 0x44A9)) [] = some ([0x44, 0x00, 0x00, 0xFD, 0x20], 0x0002, 2, []) := by
  decide

/-! ## Witnesses: concrete values that meet the hypotheses of each obligation that has some -/

/-- One form of `mk`, well-formed, whose row stands in its table. -/
def HasForm (mk : Operand → Instr) (o : Operand) (row : FormRow) : Prop :=
  (mk o).wf = true ∧ row.1 = o.mode ∧ opcodeOf (mk o) = some row.2.1

theorem witness_DecodeOfEncodeIsIdentity :
    (Instr.undAbx 0xFC 0xFFFF).wf = true ∧ (Instr.undImp 0x02).wf = true ∧ (Instr.lda (.izy 0xFF)).wf = true ∧
    (Instr.jsr 0x0000).wf = true := by decide

theorem witness_EqualReadsMeanEqualStores :
    let s := (State.reset.write 0x0000 5).write 0xFFFF 6
    let t := (State.reset.write 0xFFFF 6).write 0x0000 5
    s.mem.wf ∧ t.mem.wf ∧ ∀ a : Word, s.read a = t.read a :=
  ⟨State.write_wf _ _ (State.write_wf _ _ (by decide)), State.write_wf _ _ (State.write_wf _ _ (by decide)),
    fun _ => rfl⟩

/-- PHA onto the third byte of the next instruction: 0xAD with operand 0x4412 where 0xAD with 0x0012 stood. -/
theorem witness_StoreIsSeenByNextFetch :
    let s := place 0x01F9 [0x48, 0xAD, 0x12, 0x00] [] 0x44 0 0 0xFC 0x20
    ((decodeBytes 0xAD 0x12 0x00) = .lda (.abs 0x0012)) ∧
    ∃ t, exec .pha s = .next t ∧ t.instrAt = .lda (.abs 0x4412) := by
  refine ⟨rfl, _, rfl, by decide⟩

theorem witness_FetchHelperDeliversTheOperand :
    (Operand.imp = .imp) ∧ (Operand.izy 0xFF).mode ∉ [Mode.IMP, .IMM] ∧ (Operand.zp0 0x00).mode ∉ [Mode.IMP, .IMM] ∧
    Operand.imm 0x44 = .imm 0x44 ∧
    (place 0x0600 [0xA9, 0x44] [] 0 0 0 0xFD 0x20).instrAt.operandBytes = [0x44] := by decide

theorem witness_AdcAddsWithCarry : HasForm .adc (.izy 0xFF) (.IZY, 0x71, 5) ∧ HasForm .adc (.imm 0) (.IMM, 0x69, 2) := by
  unfold HasForm; decide

theorem witness_SbcSubtractsWithBorrow :
    HasForm .sbc (.abx 0xFFFF) (.ABX, 0xFD, 4) ∧ HasForm .sbc (.imm 0) (.IMM, 0xE9, 2) := by
  unfold HasForm; decide

theorem witness_DecimalIsNeverRead : touchesDecimal (.adc (.imm 0x09)) = false ∧ touchesDecimal .nop = false := by
  decide

theorem witness_LogicalOperationsCombineIntoA :
    HasForm .and (.imm 0xFF) (.IMM, 0x29, 2) ∧ HasForm .ora (.aby 0xFFFF) (.ABY, 0x19, 4) ∧
    HasForm .eor (.izx 0x00) (.IZX, 0x41, 6) := by
  unfold HasForm; decide

theorem witness_BitTestsMemoryAgainstA :
    HasForm .bit (.zp0 0xFF) (.ZP0, 0x24, 3) ∧ HasForm .bit (.abs 0x0000) (.ABS, 0x2C, 4) := by
  unfold HasForm; decide

theorem witness_ShiftsMoveOneBitThroughCarry :
    HasForm .asl .imp (.IMP, 0x0A, 2) ∧ HasForm .lsr (.zpx 0xFF) (.ZPX, 0x56, 6) ∧
    HasForm .rol (.abs 0xFFFF) (.ABS, 0x2E, 6) ∧ HasForm .ror (.abx 0x00FF) (.ABX, 0x7E, 7) := by
  unfold HasForm; decide

theorem witness_ComparesSetCarryZeroNegative :
    HasForm .cmp (.aby 0x00FF) (.ABY, 0xD9, 4) ∧ HasForm .cpx (.imm 0x00) (.IMM, 0xE0, 2) ∧
    HasForm .cpy (.abs 0xFFFF) (.ABS, 0xCC, 4) := by
  unfold HasForm; decide

theorem witness_IncAndDecStepOneMemoryByte :
    HasForm .inc (.zpx 0xFF) (.ZPX, 0xF6, 6) ∧ HasForm .dec (.abx 0xFFFF) (.ABX, 0xDE, 7) := by
  unfold HasForm; decide

theorem witness_LoadsWriteRegisterAndZN :
    HasForm .lda (.izx 0xFF) (.IZX, 0xA1, 6) ∧ HasForm .ldx (.zpy 0xFF) (.ZPY, 0xB6, 4) ∧
    HasForm .ldy (.abx 0xFFFF) (.ABX, 0xBC, 4) := by
  unfold HasForm; decide

theorem witness_StoresWriteOneByteAndNoFlag :
    HasForm .sta (.izy 0xFF) (.IZY, 0x91, 6) ∧ HasForm .stx (.zpy 0xFF) (.ZPY, 0x96, 4) ∧
    HasForm .sty (.abs 0xFFFF) (.ABS, 0x8C, 4) := by
  unfold HasForm; decide

/-- Each branch not taken and taken. -/
theorem witness_BranchesFollowTheirFlag :
    (∀ f : StatusFlag, ∃ s : State, s.flag f = false ∧ (!s.flag f) = true) ∧
    (∀ f : StatusFlag, ∃ s : State, s.flag f = true ∧ (!s.flag f) = false) :=
  ⟨fun f => ⟨State.reset.setFlag f false, by cases f <;> decide⟩,
    fun f => ⟨State.reset.setFlag f true, by cases f <;> decide⟩⟩

theorem witness_JmpGoesToTheResolvedAddress :
    HasForm .jmp (.abs 0xFFFF) (.ABS, 0x4C, 3) ∧ HasForm .jmp (.ind 0x30FF) (.IND, 0x6C, 5) := by
  unfold HasForm; decide

theorem witness_NoOperationsOnlyAdvance :
    0x02 ∈ oneByteNoOps ∧ 0x0C ∈ oneByteNoOps ∧ 0xFF ∈ oneByteNoOps ∧
    0x1C ∈ ([0x1C, 0x3C, 0x5C, 0x7C, 0xDC, 0xFC] : List Byte) ∧
    0xFC ∈ ([0x1C, 0x3C, 0x5C, 0x7C, 0xDC, 0xFC] : List Byte) := by
  decide

theorem witness_CostLiesBetweenTwoAndSeven : (Instr.ror (.abx 0xFFFF)).wf = true ∧ Instr.brk.wf = true := by decide

theorem witness_FlagsChangeOnlyAsTabled :
    (∃ t, exec .tsx State.reset = .next t) ∧ writesFlag .Z .tsx = false := ⟨⟨_, rfl⟩, rfl⟩

theorem witness_RegistersChangeOnlyAsTabled :
    (∃ t, exec (.asl (.zp0 0x10)) State.reset = .next t) ∧ writesReg .A (.asl (.zp0 0x10)) = false := ⟨⟨_, rfl⟩, rfl⟩

theorem witness_MemoryChangesOnlyAsTabled :
    (∃ t, exec (.sta (.abs 0xFFFF)) State.reset = .next t) ∧
    0x0000 ∉ writtenAddresses (.sta (.abs 0xFFFF)) State.reset := ⟨⟨_, rfl⟩, by decide⟩

/-- With a listed Clock, and with nothing listed. -/
theorem witness_StepRunsTheDecodedInstruction :
    let s := place 0x0600 [0xA9, 0x44] [] 0 0 0 0xFD 0x20
    s.countdown = 0 ∧ (s.inputs = [] ∧ ([] : List Input) = [] ∨ s.inputs = .command .clock :: []) ∧
    (State.withFetchWord s 16 0x44A9).inputs = .command .clock :: [] ∧
    decode [s.read s.pc, s.read (s.pc + 1), s.read (s.pc + 2)] = .ok (.lda (.imm 0x44), [0x00]) ∧
    ∃ t, exec (.lda (.imm 0x44)) { s with opcode := s.read s.pc, inputs := [] } = .next t :=
  ⟨rfl, .inl ⟨rfl, rfl⟩, rfl, rfl, ⟨_, rfl⟩⟩

theorem witness_StepPerformsTheNextInput :
    ∀ is : List Input, ∃ s : State, s.inputs = is := fun is => ⟨State.reset.setInputs is, rfl⟩

theorem witness_ClockDispatchesOrCountsDown :
    State.reset.countdown = 7 + 1 ∧ (State.reset.charge 1).countdown = 0 + 1 ∧ (State.reset.charge 0).countdown = 0 :=
  ⟨rfl, rfl, rfl⟩

theorem witness_StepKeepsInvariant :
    let s := (place 0x0600 [0x85, 0x10] [] 0x42 0 0 0xFD 0x20)
    MachineInv s ∧ ∃ t, step s = .next t := by
  refine ⟨⟨?_, by decide⟩, ⟨_, rfl⟩⟩
  exact State.write_wf _ _ (State.write_wf _ _ (by decide))

/-- NOP at 0x0600: two Clocks, one in between. -/
theorem witness_StepFramingAgreesWithClocks :
    let s := place 0x0600 [0xEA] [] 0 0 0 0xFD 0x20
    s.countdown = 0 ∧ (stepWhole s).2 = 2 ∧ 0 < 1 ∧ 1 < (stepWhole s).2 := by decide

theorem witness_NinthClockAfterResetDispatches : 0 ≤ 8 ∧ 8 ≤ 8 := by decide

theorem witness_IrqEntersUnlessMasked :
    (State.reset.setFlag .I true).flag .I = true ∧ State.reset.flag .I = false := by decide

theorem witness_InterruptsTakeEffectInDriverOrder : State.reset.flag .I = false := by decide

theorem witness_RtiResumesAfterEveryEntry : State.reset.flag .I = false := by decide

theorem witness_InterruptMaskActsAtOnce : Instr.plp ∈ [Instr.plp, .rti] ∧ Instr.rti ∈ [Instr.plp, .rti] := by decide

theorem witness_ScratchFieldsAreInvisible :
    let s := place 0x0600 [0x0A] [] 0x41 0 0 0xFD 0x20
    let t := { s with addrAbs := 0x1234, fetched := 0xFF }
    s ≠ t ∧ forgetScratch s = forgetScratch t ∧ ∃ s', step s = .next s' := ⟨by decide, rfl, ⟨_, rfl⟩⟩

theorem witness_LiveBreakAndUnusedAreInvisible :
    let s := place 0x0600 [0x08] [] 0 0 0 0xFD 0x20
    let t := { s with p := 0x10 }
    s ≠ t ∧ forgetHidden s = forgetHidden t ∧ ∃ s', step s = .next s' := ⟨by decide, by decide, ⟨_, rfl⟩⟩

theorem witness_BreakRisesOnlyByPlp :
    ∃ s t : State, step s = .next t ∧ s.flag .B = false ∧ t.flag .B = true :=
  ⟨place 0x0600 [0x28] [(0x01FD, 0x10)] 0 0 0 0xFC 0x20, _, rfl, by decide, by decide⟩

/-- An RTI that clears live Unused, a PLP and a Reset that set it. -/
theorem witness_UnusedFallsOnlyByRti :
    (∃ s t : State, step s = .next t ∧ s.flag .U = true ∧ t.flag .U = false) ∧
    (∃ s t : State, step s = .next t ∧ s.inputs = [] ∧ s.flag .U = false ∧ t.flag .U = true) ∧
    (∃ s t : State, step s = .next t ∧ s.inputs = [.command .reset] ∧ s.flag .U = false ∧ t.flag .U = true) :=
  ⟨⟨place 0x0600 [0x40] [] 0 0 0 0xFA 0x20, _, rfl, by decide, by decide⟩,
    ⟨place 0x0600 [0x28] [] 0 0 0 0xFA 0x00, _, rfl, rfl, by decide, by decide⟩,
    ⟨{ place 0x0600 [] [] 0 0 0 0xFA 0x00 with inputs := [.command .reset] }, _, rfl, rfl, by decide, by decide⟩⟩

/-- A JMP to its own address, one through a pointer (at the end of a page) that holds it, and a taken branch with offset
0xFE. -/
theorem witness_SelfJumpChangesNothingForEver :
    let s := place 0x0606 [0x4C, 0x06, 0x06] [] 0 0 0 0xFD 0x20
    let t := place 0x0606 [0xD0, 0xFE] [] 0 0 0 0xFD 0x20
    let u := place 0x0606 [0x6C, 0xFF, 0x30] [(0x30FF, 0x06), (0x3000, 0x06)] 0 0 0 0xFD 0x20
    (s.countdown = 0 ∧ AtSelfJump s) ∧ (t.countdown = 0 ∧ AtSelfJump t) ∧ (u.countdown = 0 ∧ AtSelfJump u) :=
  ⟨⟨rfl, .inl (by decide)⟩, ⟨rfl, .inr (.inr (by decide))⟩, ⟨rfl, .inr (.inl ⟨0x30FF, by decide⟩)⟩⟩


end Sys2Proof.Tests
end

section
/-! PROOFS. What one instruction can do, said once: it answers a next state, reached from the old one by updates of the
registers, flags and addresses that the tables give it, at a cost of 2 to 7. -/

namespace Sys2Proof.Machine

open Sys2Proof Sys2Proof.Claims

/-- `t` is reached from `s` by the model's own updates: of registers that `regs` allows, of flags that `flags` allows,
of bytes at listed addresses, and of `pc`, `countdown` and the scratch fields. The inputs are never updated. -/
inductive Updates (regs : Reg → Bool) (flags : StatusFlag → Bool) (stored : List Word) (s : State) :
    State → Prop where
  | refl : Updates regs flags stored s s
  | setReg {t : State} (h : Updates regs flags stored s t) {r : Reg} (hr : regs r = true) (v : Byte) :
      Updates regs flags stored s (t.setReg r v)
  | setFlag {t : State} (h : Updates regs flags stored s t) {f : StatusFlag} (hf : flags f = true) (b : Bool) :
      Updates regs flags stored s (t.setFlag f b)
  | setStatus {t : State} (h : Updates regs flags stored s t) (hf : ∀ f, flags f = true) (v : Byte) :
      Updates regs flags stored s (t.setStatus v)
  | write {t : State} (h : Updates regs flags stored s t) {a : Word} (ha : a ∈ stored) (v : Byte) :
      Updates regs flags stored s (t.write a v)
  | setPc {t : State} (h : Updates regs flags stored s t) (w : Word) : Updates regs flags stored s (t.setPc w)
  | charge {t : State} (h : Updates regs flags stored s t) (n : Nat) : Updates regs flags stored s (t.charge n)
  | scratch {t : State} (h : Updates regs flags stored s t) (abs rel : Word) (v : Byte) :
      Updates regs flags stored s { t with addrAbs := abs, addrRel := rel, fetched := v }

namespace Updates

variable {regs : Reg → Bool} {flags : StatusFlag → Bool} {stored : List Word} {s t u : State} {o : Operand}

/-! ### What updates leave -/

theorem reg_eq (h : Updates regs flags stored s t) {q : Reg} (hq : regs q = false) : t.reg q = s.reg q := by
  induction h with
  | refl => rfl
  | @setReg t _ r hr v ih =>
    have hne : q ≠ r := by rintro rfl; simp [hq] at hr
    simpa [hne] using ih
  | scratch _ _ _ _ ih => cases q <;> exact ih
  | _ => simpa using ‹_ = s.reg q›

theorem flag_eq (h : Updates regs flags stored s t) {g : StatusFlag} (hg : flags g = false) : t.flag g = s.flag g := by
  induction h with
  | refl => rfl
  | @setFlag t _ f hf b ih =>
    have hne : g ≠ f := by rintro rfl; simp [hg] at hf
    simpa [hne] using ih
  | setStatus _ hf => simp [hf g] at hg
  | scratch _ _ _ _ ih => exact ih
  | _ => simpa using ‹_ = s.flag g›

theorem read_eq (h : Updates regs flags stored s t) : SameMem stored s t := by
  intro b hb
  induction h with
  | refl => rfl
  | @write t _ a ha v ih =>
    have hne : b ≠ a := by rintro rfl; exact hb ha
    simpa [hne] using ih
  | scratch _ _ _ _ ih => exact ih
  | _ => simpa using ‹_ = s.read b›

theorem inputs_eq (h : Updates regs flags stored s t) : t.inputs = s.inputs := by
  induction h with
  | refl => rfl
  | scratch _ _ _ _ ih => exact ih
  | _ => simpa using ‹_ = s.inputs›

theorem mem_wf (h : Updates regs flags stored s t) (hs : s.mem.wf) : t.mem.wf := by
  induction h with
  | refl => exact hs
  | write _ _ v ih => exact State.write_wf _ v ih
  | scratch _ _ _ _ ih => exact ih
  | _ => simpa using ‹Memory.wf _›

/-! ### The shared operations are updates -/

theorem setZN (h : Updates regs flags stored s t) (hZ : flags .Z = true) (hN : flags .N = true) (v : Byte) :
    Updates regs flags stored s (t.setZN v) := (h.setFlag hZ _).setFlag hN _

theorem afterMode (h : Updates regs flags stored s t) (o : Operand) : Updates regs flags stored s (afterMode o t) :=
  (h.setPc (t.pcAfter o.mode.length)).scratch (resolve o t).addr t.addrRel t.fetched

theorem afterFetch (h : Updates regs flags stored s t) (o : Operand) : Updates regs flags stored s (afterFetch o t) :=
  (h.setPc (t.pcAfter o.mode.length)).scratch (resolve o t).addr t.addrRel (fetchOperand o t)

theorem branch (h : Updates regs flags stored s t) (cond : Bool) (d : Byte) :
    Updates regs flags stored s (branch cond d t) :=
  ((h.setPc (if cond then branchTarget d t else t.pcAfter 2)).charge
    (2 + (if cond then takenExtra d t else 0))).scratch t.addrAbs (sext16 d) t.fetched

theorem popped (h : Updates regs flags stored s t) (hr : regs .SP = true) : Updates regs flags stored s t.popped :=
  h.setReg hr _

theorem push (h : Updates regs flags stored s t) (hr : regs .SP = true) (ha : stackAddr t.sp ∈ stored) (v : Byte) :
    Updates regs flags stored s (t.push v) := (h.write ha v).setReg hr _

theorem pushWord (h : Updates regs flags stored s t) (hr : regs .SP = true) (hhi : stackAddr t.sp ∈ stored)
    (hlo : stackAddr (t.sp - 1) ∈ stored) (w : Word) : Updates regs flags stored s (t.pushWord w) :=
  (h.push hr hhi _).push hr (by simpa using hlo) _

theorem addCore (h : Updates regs flags stored s t) (hA : regs .A = true)
    (hf : ∀ f ∈ [StatusFlag.C, .Z, .V, .N], flags f = true) (v : Byte) :
    Updates regs flags stored s (addCore v t) := by
  have hC := hf .C (by simp)
  have hZ := hf .Z (by simp)
  have hV := hf .V (by simp)
  have hN := hf .N (by simp)
  exact ((((h.setFlag hC _).setFlag hZ _).setFlag hV _).setFlag hN _).setReg hA _

theorem writeBack (h : Updates regs flags stored s t) (hA : o = .imp → regs .A = true)
    (ha : o ≠ .imp → (resolve o u).addr ∈ stored) (hZ : flags .Z = true) (hN : flags .N = true) (r : Byte) :
    Updates regs flags stored s (writeBack o u r t) := by
  by_cases ho : o = .imp
  · subst ho
    exact (h.setReg (hA rfl) r).setZN hZ hN r
  · have hw := (h.write (ha ho) r).setZN hZ hN r
    cases o with
    | imp => exact absurd rfl ho
    | _ => exact hw

theorem enterHandler (h : Updates regs flags stored s t) (hr : regs .SP = true) (hI : flags .I = true)
    (ha : ∀ a ∈ frameBytes t, a ∈ stored) (ret : Word) (status : Byte) (vec : Word) :
    Updates regs flags stored s (t.enterHandler ret status vec) := by
  have h0 : stackAddr t.sp ∈ stored := ha _ (by simp [frameBytes])
  have h1 : stackAddr (t.sp - 1) ∈ stored := ha _ (by simp [frameBytes])
  have h2 : stackAddr (t.sp - 1 - 1) ∈ stored := ha _ (by simp [frameBytes, BitVec.sub_sub])
  exact (((h.pushWord hr h0 h1 ret).push hr (by simpa using h2) status).setFlag hI true).setPc _

end Updates

/-- Every instruction answers a next state, in which it has updated no more than the tables of registers (R10), flags
(R17) and written addresses (R53) give it. -/
theorem exec_updates (i : Instr) (s : State) :
    ∃ t, exec i s = .next t ∧ Updates (writesReg · i) (writesFlag · i) (writtenAddresses i s) s t := by
  have start {r f m} : Updates r f m s s := .refl
  have past {r f m} : Updates r f m s (s.setPc (s.pcAfter 1)) := start.setPc _
  have mode {r f m} (o : Operand) : Updates r f m s (afterMode o s) := start.afterMode o
  have fetch {r f m} (o : Operand) : Updates r f m s (afterFetch o s) := start.afterFetch o
  cases i with
  | adc o | sbc o => exact ⟨_, rfl, ((fetch o).addCore rfl (by simp [writesFlag]) _).charge _⟩
  | and o | ora o | eor o => exact ⟨_, rfl, (((fetch o).setReg rfl _).setZN rfl rfl _).charge _⟩
  | bit o => exact ⟨_, rfl, ((((fetch o).setFlag rfl _).setFlag rfl _).setFlag rfl _).charge _⟩
  | asl o | lsr o | rol o | ror o =>
    exact ⟨_, rfl, (((fetch o).setFlag rfl _).writeBack (by simp [writesReg]) (by simp_all [writtenAddresses])
      rfl rfl _).charge _⟩
  | cmp o | cpx o | cpy o => exact ⟨_, rfl, ((((fetch o).setFlag rfl _).setFlag rfl _).setFlag rfl _).charge _⟩
  | inc o | dec o =>
    exact ⟨_, rfl, (((fetch o).write (List.mem_singleton.mpr rfl) _).setZN rfl rfl _).charge _⟩
  | lda o | ldx o | ldy o => exact ⟨_, rfl, (((fetch o).setReg rfl _).setZN rfl rfl _).charge _⟩
  | sta o | stx o | sty o => exact ⟨_, rfl, ((mode o).write (List.mem_singleton.mpr rfl) _).charge _⟩
  | inx | iny | dex | dey | tax | tay | txa | tya => exact ⟨_, rfl, ((past.setReg rfl _).setZN rfl rfl _).charge _⟩
  | tsx | txs => exact ⟨_, rfl, (past.setReg rfl _).charge _⟩
  | pha => exact ⟨_, rfl, (past.push rfl (List.mem_singleton.mpr rfl) _).charge _⟩
  | pla => exact ⟨_, rfl, (((past.popped rfl).setReg rfl _).setZN rfl rfl _).charge _⟩
  | php => exact ⟨_, rfl, ((past.push rfl (List.mem_singleton.mpr rfl) _).setFlag rfl _).charge _⟩
  | plp => exact ⟨_, rfl, ((past.popped rfl).setStatus (fun _ => rfl) _).charge _⟩
  | bcc d | bcs d | beq d | bne d | bmi d | bpl d | bvc d | bvs d =>
    exact ⟨_, rfl, start.branch _ d⟩
  | jmp o => exact ⟨_, rfl, ((mode o).setPc _).charge _⟩
  | jsr w =>
    have hhi : stackAddr s.sp ∈ writtenAddresses (.jsr w) s := by simp [writtenAddresses]
    have hlo : stackAddr (s.sp - 1) ∈ writtenAddresses (.jsr w) s := by simp [writtenAddresses]
    exact ⟨_, rfl, (((mode (.abs w)).pushWord rfl hhi hlo _).setPc _).charge _⟩
  | rts => exact ⟨_, rfl, (((past.popped rfl).popped rfl).setPc _).charge _⟩
  | brk => exact ⟨_, rfl, (past.enterHandler rfl rfl (by simp [writtenAddresses, frameBytes]) _ _ _).charge _⟩
  | rti =>
    exact ⟨_, rfl, (((((past.popped rfl).setStatus (fun _ => rfl) _).popped rfl).popped rfl).setPc _).charge _⟩
  | clc | sec | cli | sei | cld | sed | clv => exact ⟨_, rfl, (past.setFlag rfl _).charge _⟩
  | nop | undImp => exact ⟨_, rfl, past.charge _⟩
  | undAbx op w => exact ⟨_, rfl, (mode (.abx w)).charge _⟩

/-! ### Costs (R217, R270) -/

theorem formCost_within {base : Nat} {ox : Bool} (lo : 2 ≤ base) (hi : base + ox.toNat ≤ 7) (o : Operand)
    (s : State) : 2 ≤ formCost base ox o s ∧ formCost base ox o s ≤ 7 := by
  cases ox
  · simpa [formCost] using ⟨lo, hi⟩
  · have hcost := formCost_bounds base true o s
    simp only [Bool.toNat_true] at hi
    omega

theorem readCycles_within (o : Operand) : 2 ≤ readCycles o ∧ readCycles o ≤ 6 := by
  cases o <;> simp [readCycles]
theorem storeCycles_within (o : Operand) : 2 ≤ storeCycles o ∧ storeCycles o ≤ 6 := by
  cases o <;> simp [storeCycles]
theorem modifyCycles_within (o : Operand) : 2 ≤ modifyCycles o ∧ modifyCycles o ≤ 7 := by
  cases o <;> simp [modifyCycles]
theorem jumpCycles_within (o : Operand) : 2 ≤ jumpCycles o ∧ jumpCycles o ≤ 5 := by
  cases o <;> simp [jumpCycles]

theorem branch_countdown_within (cond : Bool) (d : Byte) (s : State) :
    2 ≤ (branch cond d s).countdown ∧ (branch cond d s).countdown ≤ 4 := by
  simp only [branch, takenExtra]
  split_ifs <;> omega

/-- Every instruction, ill-formed terms included, costs from 2 to 7 cycles. -/
theorem exec_cost {i : Instr} {s t : State} (h : exec i s = .next t) : 2 ≤ t.countdown ∧ t.countdown ≤ 7 := by
  have read (ox : Bool) (o : Operand) : 2 ≤ formCost (readCycles o) ox o s ∧ formCost (readCycles o) ox o s ≤ 7 := by
    have hbase := readCycles_within o
    have hox := ox.toNat_le
    exact formCost_within (by omega) (by omega) o s
  have modify (o : Operand) : 2 ≤ formCost (modifyCycles o) false o s ∧ formCost (modifyCycles o) false o s ≤ 7 :=
    formCost_within (ox := false) (modifyCycles_within o).1 (modifyCycles_within o).2 o s
  cases i with
  | adc o | sbc o | and o | ora o | eor o | cmp o | lda o | ldx o | ldy o => cases h; exact read true o
  | bit o | cpx o | cpy o => cases h; exact read false o
  | asl o | lsr o | rol o | ror o | inc o | dec o => cases h; exact modify o
  | sta o | stx o | sty o =>
    have hbase := storeCycles_within o
    cases h
    exact formCost_within hbase.1 (by simp; omega) o s
  | jmp o =>
    have hbase := jumpCycles_within o
    cases h
    exact formCost_within hbase.1 (by simp; omega) o s
  | bcc d | bcs d | beq d | bne d | bmi d | bpl d | bvc d | bvs d =>
    cases h
    exact (branch_countdown_within _ d s).imp_right (by omega)
  | undAbx op w => cases h; exact formCost_within (by decide) (by decide) (.abx w) s
  | _ => cases h; simp

theorem exec_updates_of_next {i : Instr} {s t : State} (h : exec i s = .next t) :
    Updates (writesReg · i) (writesFlag · i) (writtenAddresses i s) s t := by
  obtain ⟨u, hu, hupd⟩ := exec_updates i s
  cases hu.symm.trans h
  exact hupd

/-! ### The obligations on a single instruction -/

/-- Settles O37: an update of a flag is one that R17 gives the instruction. -/
theorem flagsChangeOnlyAsTabled : Obligations.FlagsChangeOnlyAsTabled := by
  unfold Obligations.FlagsChangeOnlyAsTabled
  exact fun _ _ _ _ h hf => (exec_updates_of_next h).flag_eq hf

/-- Settles O38: an update of a register is one that R10 gives the instruction. -/
theorem registersChangeOnlyAsTabled : Obligations.RegistersChangeOnlyAsTabled := by
  unfold Obligations.RegistersChangeOnlyAsTabled
  exact fun _ _ _ _ h hr => (exec_updates_of_next h).reg_eq hr

/-! ### The invariant -/

/-- An instruction keeps the store in canonical form. -/
theorem exec_keeps_wf {i : Instr} {s t : State} (h : exec i s = .next t) (hs : s.mem.wf) : t.mem.wf :=
  (exec_updates_of_next h).mem_wf hs

theorem clockCommand_keeps_inv {s t : State} (hs : MachineInv s) (h : clockCommand s = .next t) : MachineInv t := by
  obtain ⟨hwf, hle⟩ := hs
  rcases clockCommand_cases h with ⟨-, rfl⟩ | ⟨-, u, hd, rfl⟩
  · exact ⟨hwf, by simp; omega⟩
  · have hcost := exec_cost hd
    have hu : u.mem.wf := exec_keeps_wf hd hwf
    exact ⟨hu, by simp; omega⟩

theorem irqCommand_keeps_inv {s : State} (hs : MachineInv s) : MachineInv (irqCommand s) := by
  unfold irqCommand
  split
  · exact hs
  · exact ⟨State.interruptEntry_wf _ _ hs.1, by simp⟩

theorem nmiCommand_keeps_inv {s : State} (hs : MachineInv s) : MachineInv (nmiCommand s) :=
  ⟨State.interruptEntry_wf _ _ hs.1, by simp [nmiCommand]⟩

/-- Settles O44: each kind of step keeps the canonical form and leaves a countdown of at most 8. -/
theorem stepKeepsInvariant : Obligations.StepKeepsInvariant := by
  unfold Obligations.StepKeepsInvariant
  intro s t hs h
  have taken (rest : List Input) : MachineInv (s.setInputs rest) := hs
  rcases step_cases h with ⟨-, hc⟩ | ⟨rest, -, hc⟩ | ⟨rest, -, rfl⟩ | ⟨rest, -, rfl⟩ | ⟨rest, -, rfl⟩ |
    ⟨rest, a, v, -, rfl⟩
  · exact clockCommand_keeps_inv hs hc
  · exact clockCommand_keeps_inv (taken rest) hc
  · exact ⟨hs.1, le_rfl⟩
  · exact irqCommand_keeps_inv (taken rest)
  · exact nmiCommand_keeps_inv (taken rest)
  · exact ⟨State.write_wf a v hs.1, hs.2⟩

end Sys2Proof.Machine
end

section
/-! PROOFS. Which step can change live Break and Unused (10_state.md R20), and the reset state and the status register
as the model has them (R16, R25). -/

namespace Sys2Proof.Machine

open Sys2Proof Sys2Proof.Claims

/-! ### Flags under a step -/

/-- A Clock that changes a flag stands at an instruction boundary and ran the instruction there. -/
theorem clockCommand_changes_flag {s t : State} {f : StatusFlag} (h : clockCommand s = .next t)
    (hne : t.flag f ≠ s.flag f) :
    s.countdown = 0 ∧ ∃ u, exec s.instrAt s.latchOpcode = .next u ∧ u.flag f = t.flag f := by
  rcases clockCommand_cases h with ⟨-, rfl⟩ | ⟨hc, u, hd, rfl⟩
  · exact absurd (State.tickEnd_flag s f) hne
  · exact ⟨hc, u, hd, (State.tickEnd_flag u f).symm⟩

/-- What a step that changes a flag did: it ran the instruction at `pc`, on a state that differs from the old one in
inputs and latched opcode alone, or performed Reset, IRQ or NMI. -/
theorem step_changes_flag {s t : State} {f : StatusFlag} (h : step s = .next t) (hne : t.flag f ≠ s.flag f) :
    (Ready s ∧ ∃ rest u, exec s.instrAt (s.setInputs rest).latchOpcode = .next u ∧ u.flag f = t.flag f) ∨
    (∃ rest, s.inputs = .command .reset :: rest ∧ t = resetCommand (s.setInputs rest)) ∨
    (∃ rest, s.inputs = .command .irq :: rest ∧ t = irqCommand (s.setInputs rest)) ∨
    (∃ rest, s.inputs = .command .nmi :: rest ∧ t = nmiCommand (s.setInputs rest)) := by
  rcases step_cases h with ⟨hi, hc⟩ | ⟨rest, hi, hc⟩ | hreset | hirq | hnmi | ⟨rest, a, v, -, rfl⟩
  · obtain ⟨h0, u, hu, huf⟩ := clockCommand_changes_flag hc hne
    exact .inl ⟨⟨h0, .inl hi⟩, s.inputs, u, hu, huf⟩
  · obtain ⟨h0, u, hu, huf⟩ := clockCommand_changes_flag hc hne
    exact .inl ⟨⟨h0, .inr ⟨rest, hi⟩⟩, rest, u, hu, huf⟩
  · exact .inr (.inl hreset)
  · exact .inr (.inr (.inl hirq))
  · exact .inr (.inr (.inr hnmi))
  · exact absurd rfl hne

theorem getFlag_resetStatus (f : StatusFlag) : getFlag 0x20 f = (f == .U) := by cases f <;> decide

/-- Reset leaves Unused alone set (R25). -/
@[simp] theorem resetCommand_flag (s : State) (f : StatusFlag) : (resetCommand s).flag f = (f == .U) :=
  getFlag_resetStatus f

theorem irqCommand_flag_B {s : State} (h : s.flag .B = false) : (irqCommand s).flag .B = false := by
  unfold irqCommand
  split
  · exact h
  · simp

theorem irqCommand_flag_U {s : State} (h : s.flag .U = true) : (irqCommand s).flag .U = true := by
  unfold irqCommand
  split
  · exact h
  · simp

/-- An instruction that changes a flag is one that the table of R17 gives it. -/
theorem writesFlag_of_changed {i : Instr} {s t : State} {f : StatusFlag} (h : exec i s = .next t)
    (hne : t.flag f ≠ s.flag f) : writesFlag f i = true := by
  by_contra hw
  exact hne ((exec_updates_of_next h).flag_eq (by simpa using hw))

theorem writesFlag_B_cases {i : Instr} (h : writesFlag .B i = true) : i = .php ∨ i = .plp ∨ i = .rti := by
  cases i <;> simp_all [writesFlag]

theorem writesFlag_U_cases {i : Instr} (h : writesFlag .U i = true) : i = .plp ∨ i = .rti := by
  cases i <;> simp_all [writesFlag]

theorem execPhp_flag_B {s t : State} (h : exec .php s = .next t) : t.flag .B = false := by
  cases h
  simp [Config.phpClearsB]

theorem execPlp_flag {s t : State} (h : exec .plp s = .next t) (f : StatusFlag) :
    t.flag f = if f = .U then true else getFlag (s.read (stackAddr (s.sp + 1))) f := by
  cases h
  simp [State.pulled]

theorem execRti_flag {s t : State} (h : exec .rti s = .next t) (f : StatusFlag) :
    t.flag f = if f = .U ∨ f = .B then false else getFlag (s.read (stackAddr (s.sp + 1))) f := by
  cases h
  simp [State.pulled]

/-- An instruction that sets live Break is a PLP whose pulled byte has bit 4 set. -/
theorem exec_raises_break {i : Instr} {s t : State} (h : exec i s = .next t) (hs : s.flag .B = false)
    (ht : t.flag .B = true) : i = .plp ∧ (s.read (stackAddr (s.sp + 1))).getLsbD 4 = true := by
  rcases writesFlag_B_cases (writesFlag_of_changed h (by simp [hs, ht])) with rfl | rfl | rfl
  · simp [execPhp_flag_B h] at ht
  · exact ⟨rfl, by simpa [execPlp_flag h, getFlag, Config.flagBit] using ht⟩
  · simp [execRti_flag h] at ht

theorem exec_lowers_unused {i : Instr} {s t : State} (h : exec i s = .next t) (hs : s.flag .U = true)
    (ht : t.flag .U = false) : i = .rti := by
  rcases writesFlag_U_cases (writesFlag_of_changed h (by simp [hs, ht])) with rfl | rfl
  · simp [execPlp_flag h] at ht
  · rfl

theorem exec_raises_unused {i : Instr} {s t : State} (h : exec i s = .next t) (hs : s.flag .U = false)
    (ht : t.flag .U = true) : i = .plp := by
  rcases writesFlag_U_cases (writesFlag_of_changed h (by simp [hs, ht])) with rfl | rfl
  · rfl
  · simp [execRti_flag h] at ht

/-- Settles O57: Reset, IRQ and NMI leave live Break 0, and of the instructions only PLP sets it. -/
theorem breakRisesOnlyByPlp : Obligations.BreakRisesOnlyByPlp := by
  unfold Obligations.BreakRisesOnlyByPlp
  intro s t h hs ht
  rcases step_changes_flag h (f := .B) (by simp [hs, ht]) with
    ⟨hready, rest, u, hu, huf⟩ | ⟨rest, -, rfl⟩ | ⟨rest, -, rfl⟩ | ⟨rest, -, rfl⟩
  · have hplp := exec_raises_break hu (by simpa using hs) (huf.trans ht)
    exact ⟨hready, by simpa using hplp⟩
  · simp at ht
  · have hlow : (irqCommand (s.setInputs rest)).flag .B = false := irqCommand_flag_B hs
    simp [hlow] at ht
  · simp [nmiCommand] at ht

/-- Settles O58: Reset, IRQ and NMI leave live Unused 1, and of the instructions RTI clears it and PLP sets it. -/
theorem unusedFallsOnlyByRti : Obligations.UnusedFallsOnlyByRti := by
  unfold Obligations.UnusedFallsOnlyByRti
  intro s t h
  constructor
  · intro hs ht
    rcases step_changes_flag h (f := .U) (by simp [hs, ht]) with
      ⟨hready, rest, u, hu, huf⟩ | ⟨rest, -, rfl⟩ | ⟨rest, -, rfl⟩ | ⟨rest, -, rfl⟩
    · exact ⟨hready, exec_lowers_unused hu hs (huf.trans ht)⟩
    · simp at ht
    · have hhigh : (irqCommand (s.setInputs rest)).flag .U = true := irqCommand_flag_U hs
      simp [hhigh] at ht
    · simp [nmiCommand] at ht
  · intro hs ht
    rcases step_changes_flag h (f := .U) (by simp [hs, ht]) with
      ⟨hready, rest, u, hu, huf⟩ | ⟨rest, hi, -⟩ | ⟨rest, hi, -⟩ | ⟨rest, hi, -⟩
    · exact .inl ⟨hready, exec_raises_unused hu hs (huf.trans ht)⟩
    · exact .inr ⟨.reset, rest, hi, by decide⟩
    · exact .inr ⟨.irq, rest, hi, by decide⟩
    · exact .inr ⟨.nmi, rest, hi, by decide⟩

/-! ### The reset state and the status register -/

/-- Settles O45: the reset state lists no byte, and counts down from 8. -/
theorem resetStateMeetsInvariant : Obligations.ResetStateMeetsInvariant := by
  unfold Obligations.ResetStateMeetsInvariant
  exact ⟨⟨.nil, by simp [State.reset]⟩, le_rfl⟩

/-- Settles O47, value by value. -/
theorem resetStateHoldsTheResetValues : Obligations.ResetStateHoldsTheResetValues := by
  unfold Obligations.ResetStateHoldsTheResetValues
  have hpc : State.reset.pc = State.reset.read16 0xFFFC := rfl
  exact ⟨rfl, rfl, rfl, rfl, getFlag_resetStatus, rfl, hpc, rfl, rfl, rfl, rfl, rfl⟩

/-- Settles O60: bits and masks by their definitions, the write of one flag by `State.setFlag_flag`. -/
theorem flagsStandAtTheirBits : Obligations.FlagsStandAtTheirBits := by
  unfold Obligations.FlagsStandAtTheirBits
  refine ⟨fun p => ?_, by decide, fun s f g b => ⟨rfl, State.setFlag_flag s f g b⟩⟩
  exact ⟨rfl, rfl, rfl, rfl, rfl, rfl, rfl, rfl⟩

end Sys2Proof.Machine
end

section
/-! PROOFS. What an instruction and a step can tell apart (10_state.md R19 to R21): two states that hold the same but
for some flags (and, where wanted, the scratch fields) are taken to two such states. -/

namespace Sys2Proof.Machine

open Sys2Proof Sys2Proof.Claims

/-- Every opcode byte decodes to an instruction of the map, whatever the bytes after it (R69): a check of the 256
opcode bytes, since being well-formed does not depend on the operand. -/
theorem decodeBytes_wf (b0 b1 b2 : Byte) : (decodeBytes b0 b1 b2).wf = true := by
  revert b0
  exact of_decide_eq_true rfl

/-- `s` and `t` hold the same, but for the flags listed and, unless `scratch` holds, the scratch fields. -/
structure Alike (hidden : List StatusFlag) (scratch : Prop) (s t : State) : Prop where
  reg : ∀ r, s.reg r = t.reg r
  flag : ∀ f, f ∉ hidden → s.flag f = t.flag f
  pc : s.pc = t.pc
  countdown : s.countdown = t.countdown
  mem : s.mem = t.mem
  inputs : s.inputs = t.inputs
  scratchFields : scratch →
    s.opcode = t.opcode ∧ s.addrAbs = t.addrAbs ∧ s.addrRel = t.addrRel ∧ s.fetched = t.fetched

@[simp] theorem branch_reg (cond : Bool) (d : Byte) (s : State) (r : Reg) : (branch cond d s).reg r = s.reg r := by
  cases r <;> rfl

namespace Alike

variable {hidden : List StatusFlag} {scratch : Prop} {s t u v : State}

/-- With nothing hidden, alike is equal: these are all of the state. -/
theorem eq (h : Alike [] True s t) : s = t := by
  obtain ⟨hreg, hflag, hpc, hcount, hmem, hin, hscr⟩ := h
  obtain ⟨hop, habs, hrel, hfet⟩ := hscr trivial
  have ha : s.a = t.a := hreg .A
  have hx : s.x = t.x := hreg .X
  have hy : s.y = t.y := hreg .Y
  have hsp : s.sp = t.sp := hreg .SP
  have hp : s.p = t.p := eq_of_getFlag fun f => hflag f (by simp)
  cases s
  cases t
  simp_all

/-! ### Updates of both states alike -/

theorem setReg (h : Alike hidden scratch s t) (r : Reg) {v w : Byte} (hv : v = w) :
    Alike hidden scratch (s.setReg r v) (t.setReg r w) := by
  subst hv
  refine ⟨fun q => ?_, fun f hf => ?_, ?_, ?_, ?_, ?_, fun hscr => ?_⟩
  · simp [h.reg q]
  · simpa using h.flag f hf
  · simpa using h.pc
  · simpa using h.countdown
  · simpa using h.mem
  · simpa using h.inputs
  · simpa using h.scratchFields hscr

theorem setStatus (h : Alike hidden scratch s t) {v w : Byte} (hv : ∀ f, f ∉ hidden → getFlag v f = getFlag w f) :
    Alike hidden scratch (s.setStatus v) (t.setStatus w) :=
  { h with reg := fun r => by simpa using h.reg r, flag := hv }

theorem setFlag (h : Alike hidden scratch s t) (f : StatusFlag) {b c : Bool} (hb : b = c) :
    Alike hidden scratch (s.setFlag f b) (t.setFlag f c) :=
  h.setStatus fun g hg => by
    have hkept : getFlag s.p g = getFlag t.p g := h.flag g hg
    simp [hb, hkept]

theorem setPc (h : Alike hidden scratch s t) {w x : Word} (hw : w = x) :
    Alike hidden scratch (s.setPc w) (t.setPc x) :=
  { h with reg := fun r => by simpa using h.reg r, pc := hw }

theorem charge (h : Alike hidden scratch s t) {m n : Nat} (hn : m = n) :
    Alike hidden scratch (s.charge m) (t.charge n) :=
  { h with reg := fun r => by simpa using h.reg r, countdown := hn }

theorem setInputs (h : Alike hidden scratch s t) (is : List Input) :
    Alike hidden scratch (s.setInputs is) (t.setInputs is) :=
  { h with reg := fun r => by simpa using h.reg r, inputs := rfl }

theorem write (h : Alike hidden scratch s t) {a b : Word} {v w : Byte} (ha : a = b) (hv : v = w) :
    Alike hidden scratch (s.write a v) (t.write b w) :=
  { h with reg := fun r => by simpa using h.reg r, mem := by simp [h.mem, ha, hv] }

/-! ### What both states give alike -/

theorem read_eq (h : Alike hidden scratch s t) (a : Word) : s.read a = t.read a := by simp [State.read, h.mem]

theorem read16_eq (h : Alike hidden scratch s t) (a : Word) : s.read16 a = t.read16 a := by
  simp [State.read16, h.read_eq]

theorem sp_eq (h : Alike hidden scratch s t) : s.sp = t.sp := h.reg .SP

theorem pcAfter_eq (h : Alike hidden scratch s t) (n : Nat) : s.pcAfter n = t.pcAfter n := by
  simp [State.pcAfter, h.pc]

theorem pulled_eq (h : Alike hidden scratch s t) : s.pulled = t.pulled := by
  simp [State.pulled, h.read_eq, h.sp_eq]

theorem instrAt_eq (h : Alike hidden scratch s t) : s.instrAt = t.instrAt := by
  simp [State.instrAt, h.read_eq, h.pc]

/-- A mode routine resolves alike, but for Implied, whose address is a scratch field (R81). -/
theorem resolve_eq (h : Alike hidden scratch s t) {o : Operand} (ho : o ≠ .imp ∨ scratch) :
    resolve o s = resolve o t := by
  cases o with
  | imp =>
    obtain ⟨-, habs, -, -⟩ := h.scratchFields (ho.resolve_left (by simp))
    simp [resolve, habs]
  | _ => simp [resolve, State.zeroPageWord, h.read_eq, h.pc, ← h.reg]

theorem resolve_ax_eq (h : Alike hidden scratch s t) (o : Operand) : (resolve o s).ax = (resolve o t).ax := by
  by_cases ho : o = .imp
  · subst ho; rfl
  · rw [h.resolve_eq (.inl ho)]

theorem fetchOperand_eq (h : Alike hidden scratch s t) (o : Operand) : fetchOperand o s = fetchOperand o t := by
  cases o with
  | imp => exact h.reg .A
  | imm d => rfl
  | _ => simp [fetchOperand, h.read_eq, h.resolve_eq]

theorem formCost_eq (h : Alike hidden scratch s t) (base : Nat) (ox : Bool) (o : Operand) :
    formCost base ox o s = formCost base ox o t := by
  simp [formCost, h.resolve_ax_eq]

/-! ### The shared operations on both states -/

theorem setZN (h : Alike hidden scratch s t) {v w : Byte} (hv : v = w) : Alike hidden scratch (s.setZN v) (t.setZN w) :=
  (h.setFlag .Z (by rw [hv])).setFlag .N (by rw [hv])

theorem setRegZN (h : Alike hidden scratch s t) (r : Reg) {v w : Byte} (hv : v = w) :
    Alike hidden scratch (s.setRegZN r v) (t.setRegZN r w) := (h.setReg r hv).setZN hv

theorem push (h : Alike hidden scratch s t) {v w : Byte} (hv : v = w) : Alike hidden scratch (s.push v) (t.push w) :=
  (h.write (by rw [h.sp_eq]) hv).setReg .SP (by rw [h.sp_eq])

theorem pushWord (h : Alike hidden scratch s t) {w x : Word} (hw : w = x) :
    Alike hidden scratch (s.pushWord w) (t.pushWord x) := (h.push (by rw [hw])).push (by rw [hw])

theorem popped (h : Alike hidden scratch s t) : Alike hidden scratch s.popped t.popped :=
  h.setReg .SP (by rw [h.sp_eq])

theorem pulledWord_eq (h : Alike hidden scratch s t) : s.pulledWord = t.pulledWord := by
  simp only [State.pulledWord, h.pulled_eq, h.popped.pulled_eq]

theorem enterHandler (h : Alike hidden scratch s t) {ret ret' : Word} {status status' : Byte} (hret : ret = ret')
    (hstatus : status = status') (vec : Word) :
    Alike hidden scratch (s.enterHandler ret status vec) (t.enterHandler ret' status' vec) := by
  have framed := ((h.pushWord hret).push hstatus).setFlag .I (c := true) rfl
  exact framed.setPc (framed.read16_eq vec)

theorem leaveHandler (h : Alike hidden scratch s t) : Alike hidden scratch s.leaveHandler t.leaveHandler := by
  have restored : Alike hidden scratch (s.popped.setStatus (rtiStatus s.pulled))
      (t.popped.setStatus (rtiStatus t.pulled)) := h.popped.setStatus fun f _ => by rw [h.pulled_eq]
  exact restored.popped.popped.setPc restored.pulledWord_eq

theorem pastOpcode (h : Alike hidden scratch s t) :
    Alike hidden scratch (s.setPc (s.pcAfter 1)) (t.setPc (t.pcAfter 1)) := h.setPc (h.pcAfter_eq 1)

/-- The address that a mode routine leaves in its scratch field is alike where the scratch fields count. -/
theorem afterMode (h : Alike hidden scratch s t) (o : Operand) :
    Alike hidden scratch (afterMode o s) (afterMode o t) :=
  { h with
    reg := fun r => by simpa using h.reg r
    pc := h.pcAfter_eq _
    scratchFields := fun hscr =>
      let ⟨hop, _, hrel, hfet⟩ := h.scratchFields hscr
      ⟨hop, congrArg Resolved.addr (h.resolve_eq (.inr hscr)), hrel, hfet⟩ }

theorem afterFetch (h : Alike hidden scratch s t) (o : Operand) :
    Alike hidden scratch (afterFetch o s) (afterFetch o t) :=
  { h with
    reg := fun r => by simpa using h.reg r
    pc := h.pcAfter_eq _
    scratchFields := fun hscr =>
      let ⟨hop, _, hrel, _⟩ := h.scratchFields hscr
      ⟨hop, congrArg Resolved.addr (h.resolve_eq (.inr hscr)), hrel, h.fetchOperand_eq o⟩ }

theorem branch (h : Alike hidden scratch s t) {cond cond' : Bool} (hc : cond = cond') (d : Byte) :
    Alike hidden scratch (branch cond d s) (branch cond' d t) := by
  have htarget : branchTarget d s = branchTarget d t := by simp [branchTarget, h.pcAfter_eq]
  have hextra : takenExtra d s = takenExtra d t := by simp [takenExtra, htarget, h.pcAfter_eq]
  subst hc
  exact
    { h with
      reg := fun r => by simpa using h.reg r
      pc := by simp [Machine.branch, htarget, h.pcAfter_eq]
      countdown := by simp [Machine.branch, hextra]
      scratchFields := fun hscr =>
        let ⟨hop, habs, _, hfet⟩ := h.scratchFields hscr
        ⟨hop, habs, rfl, hfet⟩ }

theorem writeBack (h : Alike hidden scratch s t) (huv : Alike hidden scratch u v) (o : Operand) {r r' : Byte}
    (hr : r = r') : Alike hidden scratch (writeBack o s r u) (writeBack o t r' v) := by
  cases o with
  | imp => exact (huv.setReg .A hr).setZN hr
  | _ => exact (huv.write (congrArg Resolved.addr (h.resolve_eq (.inl (by simp)))) hr).setZN hr

/-! ### The operation routines on both states -/

section

variable (hC : StatusFlag.C ∉ hidden)

include hC

theorem addCore (h : Alike hidden scratch s t) {v w : Byte} (hv : v = w) :
    Alike hidden scratch (addCore v s) (addCore w t) := by
  have hwide : addWide (s.reg .A) v (s.flag .C) = addWide (t.reg .A) w (t.flag .C) := by rw [h.reg, h.flag .C hC, hv]
  exact ((((h.setFlag .C (by rw [hwide])).setFlag .Z (by rw [hwide])).setFlag .V (by rw [hwide, h.reg, hv])).setFlag .N
    (by rw [hwide])).setReg .A (by rw [hwide])

theorem shiftOperand (h : Alike hidden scratch s t) (carry : Byte → Bool) (result : Byte → Bool → Byte) (o : Operand) :
    Alike hidden scratch (shiftOperand carry result o s) (shiftOperand carry result o t) := by
  have hm := h.fetchOperand_eq o
  have hcarry := (h.afterFetch o).setFlag .C (congrArg carry hm)
  exact (h.writeBack hcarry o (by rw [hm, h.flag .C hC])).charge (h.formCost_eq _ _ o)

end

theorem compareReg (h : Alike hidden scratch s t) (r : Reg) (ox : Bool) (o : Operand) :
    Alike hidden scratch (compareReg r ox o s) (compareReg r ox o t) := by
  have hm := h.fetchOperand_eq o
  have hr := h.reg r
  exact ((((h.afterFetch o).setFlag .C (by rw [hm, hr])).setFlag .Z (by rw [hm, hr])).setFlag .N (by rw [hm, hr])).charge
    (h.formCost_eq _ _ o)

theorem combine (h : Alike hidden scratch s t) (f : Byte → Byte → Byte) (o : Operand) :
    Alike hidden scratch (combine f o s) (combine f o t) :=
  ((h.afterFetch o).setRegZN .A (by rw [h.reg, h.fetchOperand_eq])).charge (h.formCost_eq _ _ o)

theorem loadReg (h : Alike hidden scratch s t) (r : Reg) (o : Operand) :
    Alike hidden scratch (loadReg r o s) (loadReg r o t) :=
  ((h.afterFetch o).setRegZN r (h.fetchOperand_eq o)).charge (h.formCost_eq _ _ o)

theorem storeReg (h : Alike hidden scratch s t) (r : Reg) {o : Operand} (ho : o ≠ .imp ∨ scratch) :
    Alike hidden scratch (storeReg r o s) (storeReg r o t) :=
  ((h.afterMode o).write (by rw [h.resolve_eq ho]) (h.reg r)).charge (h.formCost_eq _ _ o)

theorem modifyMemory (h : Alike hidden scratch s t) (f : Byte → Byte) {o : Operand} (ho : o ≠ .imp ∨ scratch) :
    Alike hidden scratch (modifyMemory f o s) (modifyMemory f o t) := by
  have hr : f (fetchOperand o s) = f (fetchOperand o t) := by rw [h.fetchOperand_eq]
  exact (((h.afterFetch o).write (by rw [h.resolve_eq ho]) hr).setZN hr).charge (h.formCost_eq _ _ o)

/-- Two status bytes are equal if they agree in Break and Unused and in every flag that is not hidden. -/
theorem status_eq (hBU : hidden ⊆ [.B, .U]) {p q : Byte} (hB : getFlag p .B = getFlag q .B)
    (hU : getFlag p .U = getFlag q .U) (hkept : ∀ f, f ∉ hidden → getFlag p f = getFlag q f) : p = q := by
  refine eq_of_getFlag fun f => ?_
  by_cases hf : f ∈ hidden
  · have hBorU : f = .B ∨ f = .U := by simpa using hBU hf
    rcases hBorU with rfl | rfl
    · exact hB
    · exact hU
  · exact hkept f hf

/-- The pushed copy forces Break and Unused, so they enter it in no way (R169, R195). -/
theorem pushedCopy_eq (h : Alike hidden scratch s t) (hBU : hidden ⊆ [.B, .U]) : pushedCopy s.p = pushedCopy t.p :=
  status_eq hBU (by simp) (by simp) fun f hf => by
    have hkept : getFlag s.p f = getFlag t.p f := h.flag f hf
    simp [hkept]

/-- The status of an interrupt entry forces them too (R234). -/
theorem interruptStatus_eq (h : Alike hidden scratch s t) (hBU : hidden ⊆ [.B, .U]) :
    interruptStatus s.p = interruptStatus t.p :=
  status_eq hBU (by simp) (by simp) fun f hf => by
    have hkept : getFlag s.p f = getFlag t.p f := h.flag f hf
    simp [hkept]

end Alike

section

variable {hidden : List StatusFlag} {scratch : Prop} {s t : State}

/-- An instruction takes two alike states to two alike states when nothing hidden is a flag it reads. Carry, Zero,
Overflow and Negative are all that branches and arithmetic read; PHP and BRK read the whole status, with Break and
Unused forced; and only an ill-formed term uses the scratch address that Implied mode leaves (log 21). -/
theorem exec_alike {i : Instr} (h : Alike hidden scratch s t) (hread : ∀ f ∈ [StatusFlag.C, .Z, .V, .N], f ∉ hidden)
    (hpush : touchesDecimal i = true → hidden ⊆ [.B, .U]) (hwf : i.wf = true ∨ scratch) :
    ∃ u v, exec i s = .next u ∧ exec i t = .next v ∧ Alike hidden scratch u v := by
  have hC := h.flag .C (hread .C (by simp))
  have hZ := h.flag .Z (hread .Z (by simp))
  have hV := h.flag .V (hread .V (by simp))
  have hN := h.flag .N (hread .N (by simp))
  have carry := hread .C (by simp)
  have past := h.pastOpcode
  have operand (o : Operand) (hi : i.wf = true → o ≠ .imp) : o ≠ .imp ∨ scratch := hwf.imp_left hi
  cases i with
  | adc o =>
    exact ⟨_, _, rfl, rfl, ((h.afterFetch o).addCore carry (h.fetchOperand_eq o)).charge (h.formCost_eq _ _ o)⟩
  | sbc o =>
    exact ⟨_, _, rfl, rfl,
      ((h.afterFetch o).addCore carry (by rw [h.fetchOperand_eq])).charge (h.formCost_eq _ _ o)⟩
  | and o | ora o | eor o => exact ⟨_, _, rfl, rfl, h.combine _ o⟩
  | bit o =>
    have hm := h.fetchOperand_eq o
    have hA := h.reg .A
    exact ⟨_, _, rfl, rfl, ((((h.afterFetch o).setFlag .Z (by rw [hm, hA])).setFlag .N (by rw [hm])).setFlag .V
      (by rw [hm])).charge (h.formCost_eq _ _ o)⟩
  | asl o | lsr o | rol o | ror o => exact ⟨_, _, rfl, rfl, h.shiftOperand carry _ _ o⟩
  | cmp o | cpx o | cpy o => exact ⟨_, _, rfl, rfl, h.compareReg _ _ o⟩
  | inc o | dec o =>
    exact ⟨_, _, rfl, rfl, h.modifyMemory _ (operand o (by rintro hi rfl; exact absurd hi (by decide)))⟩
  | lda o | ldx o | ldy o => exact ⟨_, _, rfl, rfl, h.loadReg _ o⟩
  | sta o | stx o | sty o =>
    exact ⟨_, _, rfl, rfl, h.storeReg _ (operand o (by rintro hi rfl; exact absurd hi (by decide)))⟩
  | inx | iny | dex | dey | tax | tay | txa | tya =>
    exact ⟨_, _, rfl, rfl, (past.setRegZN _ (by rw [past.reg])).charge rfl⟩
  | tsx | txs => exact ⟨_, _, rfl, rfl, (past.setReg _ (past.reg _)).charge rfl⟩
  | pha => exact ⟨_, _, rfl, rfl, (past.push (past.reg .A)).charge rfl⟩
  | pla => exact ⟨_, _, rfl, rfl, (past.popped.setRegZN .A past.pulled_eq).charge rfl⟩
  | php =>
    exact ⟨_, _, rfl, rfl, ((past.push (past.pushedCopy_eq (hpush rfl))).setFlag .B (c := false) rfl).charge rfl⟩
  | plp =>
    exact ⟨_, _, rfl, rfl, (past.popped.setStatus fun f _ => by rw [past.pulled_eq]).charge rfl⟩
  | bcc d | bcs d => exact ⟨_, _, rfl, rfl, h.branch (by rw [hC]) d⟩
  | beq d | bne d => exact ⟨_, _, rfl, rfl, h.branch (by rw [hZ]) d⟩
  | bmi d | bpl d => exact ⟨_, _, rfl, rfl, h.branch (by rw [hN]) d⟩
  | bvc d | bvs d => exact ⟨_, _, rfl, rfl, h.branch (by rw [hV]) d⟩
  | jmp o =>
    have htarget := h.resolve_eq (operand o (by rintro hi rfl; exact absurd hi (by decide)))
    exact ⟨_, _, rfl, rfl, ((h.afterMode o).setPc (by rw [htarget])).charge (h.formCost_eq _ _ o)⟩
  | jsr w =>
    have mode := h.afterMode (.abs w)
    exact ⟨_, _, rfl, rfl, ((mode.pushWord (by rw [mode.pc])).setPc (x := w) rfl).charge rfl⟩
  | rts => exact ⟨_, _, rfl, rfl, (past.popped.popped.setPc (by rw [past.pulledWord_eq])).charge rfl⟩
  | brk =>
    exact ⟨_, _, rfl, rfl,
      (past.enterHandler (by rw [past.pc]) (past.pushedCopy_eq (hpush rfl)) Config.vecIrq).charge rfl⟩
  | rti => exact ⟨_, _, rfl, rfl, past.leaveHandler.charge rfl⟩
  | clc | cli | cld | clv => exact ⟨_, _, rfl, rfl, (past.setFlag _ (c := false) rfl).charge rfl⟩
  | sec | sei | sed => exact ⟨_, _, rfl, rfl, (past.setFlag _ (c := true) rfl).charge rfl⟩
  | nop | undImp => exact ⟨_, _, rfl, rfl, past.charge rfl⟩
  | undAbx op w => exact ⟨_, _, rfl, rfl, (h.afterMode (.abx w)).charge (h.formCost_eq _ _ _)⟩

/-! ### A step on both states, the scratch fields and at most Break and Unused hidden -/

theorem Alike.tickEnd (h : Alike hidden scratch s t) : Alike hidden scratch s.tickEnd t.tickEnd :=
  h.charge (by rw [h.countdown])

theorem Alike.latchOpcode (h : Alike hidden scratch s t) : Alike hidden scratch s.latchOpcode t.latchOpcode :=
  { h with
    reg := fun r => by simpa using h.reg r
    scratchFields := fun hscr =>
      let ⟨_, habs, hrel, hfet⟩ := h.scratchFields hscr
      ⟨by simp [h.read_eq, h.pc], habs, hrel, hfet⟩ }

theorem Alike.resetCommand (h : Alike hidden scratch s t) :
    Alike hidden scratch (resetCommand s) (resetCommand t) where
  reg r := by cases r <;> rfl
  flag _ _ := rfl
  pc := h.read16_eq _
  countdown := rfl
  mem := h.mem
  inputs := h.inputs
  scratchFields _ := ⟨rfl, rfl, rfl, rfl⟩

variable (hBU : hidden ⊆ [.B, .U])

include hBU

theorem interruptEntry_alike (h : Alike hidden scratch s t) (vec : Word) (cost : Nat) :
    Alike hidden scratch (s.interruptEntry vec cost) (t.interruptEntry vec cost) := by
  have hstatus := h.interruptStatus_eq hBU
  exact ((h.setStatus fun f _ => by rw [hstatus]).enterHandler h.pc hstatus vec).charge rfl

theorem irqCommand_alike (h : Alike hidden scratch s t) : Alike hidden scratch (irqCommand s) (irqCommand t) := by
  have hI : s.flag .I = t.flag .I := h.flag .I fun hf => by simpa using hBU hf
  unfold irqCommand
  rw [hI]
  split
  · exact h
  · exact interruptEntry_alike hBU h _ _

theorem dispatch_alike (h : Alike hidden scratch s t) :
    ∃ u v, dispatch s = .next u ∧ dispatch t = .next v ∧ Alike hidden scratch u v := by
  have hread : ∀ f ∈ [StatusFlag.C, .Z, .V, .N], f ∉ hidden := by
    intro f hf hhid
    have hforced : f = .B ∨ f = .U := by simpa using hBU hhid
    rcases hforced with rfl | rfl <;> simp at hf
  unfold dispatch
  rw [← h.instrAt_eq]
  exact exec_alike h.latchOpcode hread (fun _ => hBU) (.inl (decodeBytes_wf _ _ _))

theorem clockCommand_alike (h : Alike hidden scratch s t) :
    ∃ u v, clockCommand s = .next u ∧ clockCommand t = .next v ∧ Alike hidden scratch u v := by
  by_cases hc : s.countdown = 0
  · obtain ⟨u, v, hu, hv, huv⟩ := dispatch_alike hBU h
    exact ⟨_, _, clockCommand_idle hc hu, clockCommand_idle (h.countdown ▸ hc) hv, huv.tickEnd⟩
  · exact ⟨_, _, clockCommand_busy hc, clockCommand_busy (h.countdown ▸ hc), h.tickEnd⟩

theorem perform_alike (h : Alike hidden scratch s t) (e : Input) :
    ∃ u v, perform e s = .next u ∧ perform e t = .next v ∧ Alike hidden scratch u v := by
  match e with
  | .command .reset => exact ⟨_, _, rfl, rfl, h.resetCommand⟩
  | .command .clock => exact clockCommand_alike hBU h
  | .command .irq => exact ⟨_, _, rfl, rfl, irqCommand_alike hBU h⟩
  | .command .nmi => exact ⟨_, _, rfl, rfl, interruptEntry_alike hBU h _ _⟩
  | .hostWrite a v => exact ⟨_, _, rfl, rfl, h.write rfl rfl⟩

theorem step_alike (h : Alike hidden scratch s t) :
    ∃ u v, step s = .next u ∧ step t = .next v ∧ Alike hidden scratch u v := by
  match hi : s.inputs with
  | [] =>
    rw [step_of_no_input hi, step_of_no_input (h.inputs ▸ hi)]
    exact clockCommand_alike hBU h
  | e :: rest =>
    rw [step_of_input hi, step_of_input (h.inputs ▸ hi)]
    exact perform_alike hBU (h.setInputs rest) e

end

/-! ### The obligations -/

@[simp] theorem forgetScratch_reg (s : State) (r : Reg) : (forgetScratch s).reg r = s.reg r := by cases r <;> rfl
@[simp] theorem forgetHidden_reg (s : State) (r : Reg) : (forgetHidden s).reg r = s.reg r := by cases r <;> rfl

@[simp] theorem forgetHidden_flag (s : State) (f : StatusFlag) :
    (forgetHidden s).flag f = if f = .B ∨ f = .U then false else s.flag f := by
  have hmask : ∀ p : Byte, getFlag (p &&& 0xCF) f = if f = .B ∨ f = .U then false else getFlag p f := by
    cases f <;> decide
  exact hmask s.p

/-- `forgetScratch` hides the scratch fields and nothing else. -/
theorem forgetScratch_eq_iff {s t : State} : forgetScratch s = forgetScratch t ↔ Alike [] False s t := by
  constructor
  · intro h
    exact
      { reg := fun r => by simpa using congrArg (·.reg r) h
        flag := fun f _ => congrArg (·.flag f) h
        pc := congrArg (·.pc) h
        countdown := congrArg (·.countdown) h
        mem := congrArg (·.mem) h
        inputs := congrArg (·.inputs) h
        scratchFields := False.elim }
  · intro h
    have hall : Alike [] True (forgetScratch s) (forgetScratch t) :=
      { h with reg := by simpa using h.reg, scratchFields := fun _ => ⟨rfl, rfl, rfl, rfl⟩ }
    exact hall.eq

/-- `forgetHidden` hides live Break and Unused and the scratch fields and nothing else. -/
theorem forgetHidden_eq_iff {s t : State} : forgetHidden s = forgetHidden t ↔ Alike [.B, .U] False s t := by
  constructor
  · intro h
    exact
      { reg := fun r => by simpa using congrArg (·.reg r) h
        flag := fun f hf => by
          have hne : ¬(f = .B ∨ f = .U) := by simpa using hf
          simpa [hne] using congrArg (·.flag f) h
        pc := congrArg (·.pc) h
        countdown := congrArg (·.countdown) h
        mem := congrArg (·.mem) h
        inputs := congrArg (·.inputs) h
        scratchFields := False.elim }
  · intro h
    have hflag (f : StatusFlag) : (forgetHidden s).flag f = (forgetHidden t).flag f := by
      by_cases hf : f = .B ∨ f = .U
      · simp [hf]
      · simpa [hf] using h.flag f (by simpa using hf)
    have hall : Alike [] True (forgetHidden s) (forgetHidden t) :=
      { h with
        reg := by simpa using h.reg
        flag := fun f _ => hflag f
        scratchFields := fun _ => ⟨rfl, rfl, rfl, rfl⟩ }
    exact hall.eq

/-- Settles O55: `step_alike` with no flag hidden. -/
theorem scratchFieldsAreInvisible : Obligations.ScratchFieldsAreInvisible := by
  unfold Obligations.ScratchFieldsAreInvisible
  intro s t s' h hs
  obtain ⟨u, v, hu, hv, huv⟩ := step_alike (by simp) (forgetScratch_eq_iff.mp h)
  cases hu.symm.trans hs
  exact ⟨v, hv, forgetScratch_eq_iff.mpr huv⟩

/-- Settles O56: `step_alike` with live Break and Unused hidden. -/
theorem liveBreakAndUnusedAreInvisible : Obligations.LiveBreakAndUnusedAreInvisible := by
  unfold Obligations.LiveBreakAndUnusedAreInvisible
  intro s t s' h hs
  obtain ⟨u, v, hu, hv, huv⟩ := step_alike (List.Subset.refl _) (forgetHidden_eq_iff.mp h)
  cases hu.symm.trans hs
  exact ⟨v, hv, forgetHidden_eq_iff.mpr huv⟩

/-- States that differ in Decimal alone. -/
theorem alike_setFlag_D (s : State) (b : Bool) : Alike [.D] True s (s.setFlag .D b) where
  reg r := by simp
  flag f hf := by simp_all
  pc := rfl
  countdown := rfl
  mem := rfl
  inputs := rfl
  scratchFields _ := ⟨rfl, rfl, rfl, rfl⟩

theorem eq_setFlag_D_of_alike {s t : State} (h : Alike [.D] True s t) : t = s.setFlag .D (t.flag .D) := by
  have hflag (f : StatusFlag) : (s.setFlag .D (t.flag .D)).flag f = t.flag f := by
    by_cases hf : f = .D
    · simp [hf]
    · simpa [hf] using h.flag f (by simpa using hf)
  have hall : Alike [] True (s.setFlag .D (t.flag .D)) t :=
    { h with reg := by simpa using h.reg, flag := fun f _ => hflag f }
  exact hall.eq.symm

theorem writesFlag_D_of_not_touchesDecimal {i : Instr} (h : touchesDecimal i = false) : writesFlag .D i = false := by
  cases i <;> simp_all [touchesDecimal, writesFlag]

/-- Settles O13: `exec_alike` with Decimal hidden, which an instruction that does not write it leaves (R17). -/
theorem decimalIsNeverRead : Obligations.DecimalIsNeverRead := by
  unfold Obligations.DecimalIsNeverRead
  intro i s b hi
  obtain ⟨u, v, hu, hv, huv⟩ := exec_alike (i := i) (alike_setFlag_D s b) (by simp) (by simp [hi]) (.inr trivial)
  have hD : v.flag .D = b := by
    simpa using (exec_updates_of_next hv).flag_eq (writesFlag_D_of_not_touchesDecimal hi)
  exact ⟨u, hu, by rw [hv, ← hD, ← eq_setFlag_D_of_alike huv]⟩

end Sys2Proof.Machine
end

section
/-! PROOFS. The store and what an instruction leaves in it (20_memory.md): a write, a word read, the canonical form, and
every read after an instruction, from the tables of written addresses and stored values (R53). -/

namespace Sys2Proof.Machine

open Sys2Proof Sys2Proof.Claims

/-! ### The canonical form -/

/-- A listed cell is what its address reads as. -/
theorem Memory.get_of_mem {m : Memory} (hm : m.Pairwise (fun c d => c.1 < d.1)) {c : Host.Cell} (hc : c ∈ m) :
    m.get c.1 = c.2 := by
  induction m with
  | nil => cases hc
  | cons d m ih =>
    obtain ⟨hd, hm⟩ := List.pairwise_cons.mp hm
    rcases List.mem_cons.mp hc with rfl | hc
    · simp [Memory.get]
    · simp [Memory.get, (hd c hc).ne, ih hm hc]

/-- An address that reads as anything but the default is listed. -/
theorem Memory.mem_of_get {m : Memory} {k : Nat} (h : m.get k ≠ Config.unwrittenByte) : (k, m.get k) ∈ m := by
  induction m with
  | nil => exact absurd rfl h
  | cons d m ih =>
    by_cases hk : d.1 = k
    · simp [Memory.get, ← hk]
    · simp only [Memory.get, hk, if_false] at h ⊢
      exact List.mem_cons_of_mem d (ih h)

theorem Memory.subset_of_get_eq {m n : Memory} (hm : m.wf) (h : ∀ k < 65536, m.get k = n.get k) : m ⊆ n := by
  obtain ⟨hsorted, hcells⟩ := hm
  intro c hc
  obtain ⟨hlt, hne⟩ := hcells c hc
  have hget : n.get c.1 = c.2 := (h c.1 hlt).symm.trans (Memory.get_of_mem hsorted hc)
  have hmem : (c.1, n.get c.1) ∈ n := Memory.mem_of_get (by rwa [hget])
  rwa [hget] at hmem

theorem Memory.nodup_of_wf {m : Memory} (hm : m.wf) : m.Nodup :=
  hm.1.imp fun hlt heq => hlt.ne (congrArg Prod.fst heq)

/-- Stores in canonical form list the same cells when they read alike, and rising addresses fix the order. -/
theorem Memory.eq_of_get_eq {m n : Memory} (hm : m.wf) (hn : n.wf) (h : ∀ k < 65536, m.get k = n.get k) : m = n := by
  have hmn : m ⊆ n := Memory.subset_of_get_eq hm h
  have hnm : n ⊆ m := Memory.subset_of_get_eq hn fun k hk => (h k hk).symm
  have hperm : m.Perm n :=
    (List.perm_ext_iff_of_nodup (Memory.nodup_of_wf hm) (Memory.nodup_of_wf hn)).mpr fun _ => ⟨(hmn ·), (hnm ·)⟩
  exact hperm.eq_of_pairwise (fun _ _ _ _ hlt hgt => absurd hlt hgt.asymm) hm.1 hn.1

/-- Settles O6: `Memory.eq_of_get_eq`, the 65536 addresses being all words. -/
theorem equalReadsMeanEqualStores : Obligations.EqualReadsMeanEqualStores := by
  unfold Obligations.EqualReadsMeanEqualStores
  intro s t hs ht h
  refine Memory.eq_of_get_eq hs ht fun k hk => ?_
  have hword : (BitVec.ofNat 16 k).toNat = k := Nat.mod_eq_of_lt hk
  simpa [State.read, hword] using h (BitVec.ofNat 16 k)

/-! ### What a stored value is in the model's own terms -/

theorem ofNat_toNat_add_one (m : Byte) : BitVec.ofNat 8 (m.toNat + 1) = m + 1 := by bv_omega

theorem ofNat_toNat_add_255 (m : Byte) : BitVec.ofNat 8 (m.toNat + 255) = m - 1 := by bv_omega

theorem ofNat_two_mul_toNat (m : Byte) : BitVec.ofNat 8 (2 * m.toNat) = m <<< 1 := by bv_omega

theorem ofNat_toNat_div_two (m : Byte) : BitVec.ofNat 8 (m.toNat / 2) = m >>> 1 := by bv_omega

/-- The result of ROL in exact arithmetic (R123): the prior carry is bit 0. -/
theorem ofNat_two_mul_toNat_add (m : Byte) (c : Bool) :
    BitVec.ofNat 8 (2 * m.toNat + c.toNat) = (m <<< 1) ||| carryByte c := by
  revert m c; decide

/-- The result of ROR in exact arithmetic (R124): the prior carry is bit 7. -/
theorem ofNat_toNat_div_two_add (m : Byte) (c : Bool) :
    BitVec.ofNat 8 (m.toNat / 2 + 128 * c.toNat) = (carryByte c <<< 7) ||| (m >>> 1) := by
  revert m c; decide

/-! ### Every read after an instruction -/

theorem writtenAddresses_length_le (i : Instr) (s : State) :
    (writtenAddresses i s).length ≤ (storedValues i s).length := by
  cases i with
  | asl o | lsr o | rol o | ror o => cases o <;> simp [writtenAddresses, storedValues]
  | _ => simp [writtenAddresses, storedValues, frameBytes]

/-- A read after an instruction's stores finds a stored value, or an address that is not written. -/
theorem readAfterStores_cases (i : Instr) (s : State) (a : Word) :
    (a, readAfterStores i s a) ∈ (writtenAddresses i s).zip (storedValues i s) ∨
      (a ∉ writtenAddresses i s ∧ readAfterStores i s a = s.read a) := by
  cases hfind : ((writtenAddresses i s).zip (storedValues i s)).find? (fun c => c.1 == a) with
  | some c =>
    have haddr : c.1 = a := by simpa using List.find?_some hfind
    have hval : readAfterStores i s a = c.2 := by simp [readAfterStores, hfind]
    rw [hval, ← haddr]
    exact .inl (List.mem_of_find?_eq_some hfind)
  | none =>
    refine .inr ⟨fun ha => ?_, by simp [readAfterStores, hfind]⟩
    rw [← List.map_fst_zip (writtenAddresses_length_le i s)] at ha
    obtain ⟨c, hc, rfl⟩ := List.mem_map.mp ha
    exact List.find?_eq_none.mp hfind c hc (beq_self_eq_true c.1)

/-- After an instruction each written address reads as the value that the rules store there (R53). -/
theorem exec_stores {i : Instr} {s t : State} (h : exec i s = .next t) :
    ∀ c ∈ (writtenAddresses i s).zip (storedValues i s), t.read c.1 = c.2 := by
  cases i with
  | sta o | stx o | sty o => cases h; simp [writtenAddresses, storedValues, storeReg]
  | inc o => cases h; simp [writtenAddresses, storedValues, modifyMemory, ofNat_toNat_add_one]
  | dec o => cases h; simp [writtenAddresses, storedValues, modifyMemory, ofNat_toNat_add_255]
  | asl o | lsr o | rol o | ror o =>
    cases h
    by_cases ho : o = .imp
    · simp [writtenAddresses, ho]
    · simp [writtenAddresses, storedValues, shiftOperand, ho, ofNat_two_mul_toNat, ofNat_toNat_div_two,
        ofNat_two_mul_toNat_add, ofNat_toNat_div_two_add]
  | pha => cases h; simp [writtenAddresses, storedValues]
  | php => cases h; simp [writtenAddresses, storedValues, pushedCopy, Config.phpClearsB]
  | jsr w =>
    have hpc : s.pc + 3#16 - 1#16 = s.pc + 2#16 := by bv_omega
    have hlo : s.sp ≠ s.sp - 1#8 := by bv_omega
    cases h
    simp [writtenAddresses, storedValues, State.pcAfter, Operand.mode, Mode.length, hpc, hlo]
  | brk =>
    have hlo : s.sp ≠ s.sp - 1#8 := by bv_omega
    have hstatus : s.sp ≠ s.sp - 2#8 := by bv_omega
    cases h
    simp [writtenAddresses, storedValues, frameBytes, State.pcAfter, pushedCopy, BitVec.sub_sub, BitVec.add_assoc,
      hlo, hstatus]
  | _ => simp [writtenAddresses]

theorem exec_read {i : Instr} {s t : State} (h : exec i s = .next t) (a : Word) :
    t.read a = readAfterStores i s a := by
  rcases readAfterStores_cases i s a with hc | ⟨ha, hr⟩
  · exact exec_stores h _ hc
  · rw [hr]
    exact (exec_updates_of_next h).read_eq a ha

/-! ### The obligations -/

/-- Settles O8: every instruction completes, and `exec_read` at the three bytes of the next one. -/
theorem storeIsSeenByNextFetch : Obligations.StoreIsSeenByNextFetch := by
  unfold Obligations.StoreIsSeenByNextFetch
  intro i s
  obtain ⟨t, ht, -⟩ := exec_updates i s
  exact ⟨t, ht, by simp only [State.instrAt, exec_read ht]⟩

/-- Settles O39: a byte that an instruction updates is one that R53 gives it. -/
theorem memoryChangesOnlyAsTabled : Obligations.MemoryChangesOnlyAsTabled := by
  unfold Obligations.MemoryChangesOnlyAsTabled
  exact fun _ _ _ h => (exec_updates_of_next h).read_eq

/-- Settles O5: the law of the bus port. -/
theorem writeReplacesOneByte : Obligations.WriteReplacesOneByte := by
  unfold Obligations.WriteReplacesOneByte
  exact State.write_read

theorem State.read16_toNat (s : State) (a : Word) :
    (s.read16 a).toNat = 256 * (s.read (a + 1)).toNat + (s.read a).toNat := by
  rw [State.read16, joinBytes_toNat, Nat.mul_comm]

/-- Settles O7: at 0xFFFF the next address is 0x0000. -/
theorem read16IsLittleEndianAndWraps : Obligations.Read16IsLittleEndianAndWraps := by
  unfold Obligations.Read16IsLittleEndianAndWraps
  exact fun s a => ⟨s.read16_toNat a, s.read16_toNat 0xFFFF⟩

end Sys2Proof.Machine
end

section
/-! PROOFS. Encoder and decoder agree (30_encoding.md R60 to R71): an opcode byte and the two bytes after it decode to a
well-formed instruction whose encoding they begin with, and the bytes of an instruction decode to it. -/

namespace Sys2Proof

open Sys2Proof.Machine

/-! ### Lengths (R60, R70) -/

theorem Mode.length_bounds (m : Mode) : 1 ≤ m.length ∧ m.length ≤ 3 := by
  cases m <;> simp [Mode.length]

theorem operandBytes_length (o : Operand) : (operandBytes o).length + 1 = o.mode.length := by
  cases o <;> rfl

theorem Instr.operandBytes_length (i : Instr) : i.operandBytes.length + 1 = i.length := by
  cases i with
  | adc o | sbc o | and o | ora o | eor o | bit o => exact Sys2Proof.operandBytes_length o
  | asl o | lsr o | rol o | ror o => exact Sys2Proof.operandBytes_length o
  | cmp o | cpx o | cpy o | inc o | dec o => exact Sys2Proof.operandBytes_length o
  | lda o | ldx o | ldy o | sta o | stx o | sty o => exact Sys2Proof.operandBytes_length o
  | jmp o => exact Sys2Proof.operandBytes_length o
  | _ => rfl

/-- A check of the 256 opcode bytes, since no mode depends on the operand. -/
theorem decodeBytes_length (b0 b1 b2 : Byte) : (decodeBytes b0 b1 b2).length = opcodeLength b0 := by
  revert b0
  exact of_decide_eq_true rfl

theorem opcodeLength_bounds (b0 : Byte) : 1 ≤ opcodeLength b0 ∧ opcodeLength b0 ≤ 3 :=
  Mode.length_bounds _

theorem decode_cons_of_le {b0 : Byte} {rest : List Byte} (h : opcodeLength b0 ≤ rest.length + 1) :
    decode (b0 :: rest) =
      .ok (decodeBytes b0 (rest.getD 0 0) (rest.getD 1 0), rest.drop (opcodeLength b0 - 1)) := by
  simp [decode, Nat.not_lt.mpr h]

theorem decode_cons_of_lt {b0 : Byte} {rest : List Byte} (h : rest.length + 1 < opcodeLength b0) :
    decode (b0 :: rest) = .error (.truncated b0) := by
  simp [decode, h]

/-! ### What the decoder answers, in the encoder's terms -/

/-- The encoder has an opcode byte for exactly the well-formed instructions. -/
theorem opcodeOf_isSome (i : Instr) : (opcodeOf i).isSome = i.wf := by
  cases i with
  | adc o | sbc o | and o | ora o | eor o | bit o => cases o <;> rfl
  | asl o | lsr o | rol o | ror o => cases o <;> rfl
  | cmp o | cpx o | cpy o | inc o | dec o => cases o <;> rfl
  | lda o | ldx o | ldy o | sta o | stx o | sty o => cases o <;> rfl
  | jmp o => cases o <;> rfl
  | undImp op | undAbx op w => simp only [opcodeOf, Instr.wf]; split <;> simp_all
  | _ => rfl

theorem encode_of_opcodeOf {i : Instr} {b : Byte} (h : opcodeOf i = some b) : encode i = b :: i.operandBytes := by
  simp [encode, h]

/-- A check of the 256 opcode bytes, since no opcode byte depends on the operand. -/
theorem opcodeOf_decodeBytes (b0 b1 b2 : Byte) : opcodeOf (decodeBytes b0 b1 b2) = some b0 := by
  revert b0
  exact of_decide_eq_true rfl

/-- Every entry of the opcode map takes its operand, as far as it has one, from the bytes after the opcode byte. -/
theorem documented_operandBytes {op : Byte} {w : Word} {i : Instr} (h : documented op (lo8 w) w = some i) :
    i.operandBytes = [lo8 w, hi8 w].take (i.length - 1) := by
  unfold documented mapRow0 mapRow1 mapRow2 mapRow3 mapRow4 mapRow5 mapRow6 mapRow7 mapRow8 mapRow9 mapRowA mapRowB
    mapRowC mapRowD mapRowE mapRowF at h
  split at h <;> split at h <;> cases h <;> rfl

theorem undocumented_operandBytes (op : Byte) (w : Word) :
    (undocumented op w).operandBytes = [lo8 w, hi8 w].take ((undocumented op w).length - 1) := by
  unfold undocumented
  split <;> rfl

theorem decodeBytes_operandBytes (b0 b1 b2 : Byte) :
    (decodeBytes b0 b1 b2).operandBytes = [b1, b2].take ((decodeBytes b0 b1 b2).length - 1) := by
  obtain ⟨w, rfl, rfl⟩ : ∃ w, b1 = lo8 w ∧ b2 = hi8 w := ⟨joinBytes b2 b1, by simp, by simp⟩
  unfold decodeBytes
  rw [joinBytes_hi8_lo8]
  split
  next h => exact documented_operandBytes h
  next => exact undocumented_operandBytes b0 w

theorem encode_decodeBytes (b0 b1 b2 : Byte) :
    encode (decodeBytes b0 b1 b2) = b0 :: [b1, b2].take (opcodeLength b0 - 1) := by
  rw [encode_of_opcodeOf (opcodeOf_decodeBytes b0 b1 b2), decodeBytes_operandBytes, decodeBytes_length]

/-! ### What the decoder answers to the encoder's bytes -/

/-- The operand of the same mode with the value of other operand bytes: the byte `d` or the word `w` (R64). -/
def Operand.withValue (d : Byte) (w : Word) : Operand → Operand
  | .imp => .imp
  | .imm _ => .imm d
  | .zp0 _ => .zp0 d
  | .zpx _ => .zpx d
  | .zpy _ => .zpy d
  | .abs _ => .abs w
  | .abx _ => .abx w
  | .aby _ => .aby w
  | .ind _ => .ind w
  | .izx _ => .izx d
  | .izy _ => .izy d

theorem eq_joinBytes_of_prefix {w : Word} {b1 b2 : Byte} (h : [lo8 w, hi8 w] <+: [b1, b2]) : w = joinBytes b2 b1 := by
  obtain ⟨rfl, rfl⟩ : lo8 w = b1 ∧ hi8 w = b2 := by simpa [List.cons_prefix_cons] using h
  exact (joinBytes_hi8_lo8 w).symm

theorem eq_of_singleton_prefix {d b1 b2 : Byte} (h : [d] <+: [b1, b2]) : d = b1 :=
  (List.cons_prefix_cons.mp h).1

theorem Operand.eq_withValue_of_prefix {o : Operand} {b1 b2 : Byte} (h : operandBytes o <+: [b1, b2]) :
    o = o.withValue b1 (joinBytes b2 b1) := by
  cases o with
  | imp => rfl
  | imm d | zp0 d | zpx d | zpy d | izx d | izy d => cases eq_of_singleton_prefix h; rfl
  | abs w | abx w | aby w | ind w => cases eq_joinBytes_of_prefix h; rfl

/-- The bytes of R68 are neither in the opcode map nor among those of R67. -/
theorem decodeBytes_undocImp {op : Byte} (h : op ∈ Config.undocImp) (b1 b2 : Byte) :
    decodeBytes op b1 b2 = .undImp op := by
  have hdoc : ∀ op ∈ Config.undocImp, (documented op b1 (joinBytes b2 b1)).isNone = true := of_decide_eq_true rfl
  have habx : ∀ op ∈ Config.undocImp, op ∉ Config.undocAbx := by decide
  simp [decodeBytes, undocumented, Option.isNone_iff_eq_none.mp (hdoc op h), habx op h]

/-- The bytes of R67 are not in the opcode map. -/
theorem decodeBytes_undocAbx {op : Byte} (h : op ∈ Config.undocAbx) (b1 b2 : Byte) :
    decodeBytes op b1 b2 = .undAbx op (joinBytes b2 b1) := by
  have hdoc : ∀ op ∈ Config.undocAbx, (documented op b1 (joinBytes b2 b1)).isNone = true := of_decide_eq_true rfl
  simp [decodeBytes, undocumented, Option.isNone_iff_eq_none.mp (hdoc op h), h]

/-- The two transcriptions of the opcode map agree: by mnemonic, in each mode, the encoder's opcode byte is one at which
the decoder has that mnemonic and mode. -/
theorem decodeBytes_of_opcodeOf {i : Instr} {op b1 b2 : Byte} (hop : opcodeOf i = some op)
    (hpre : i.operandBytes <+: [b1, b2]) : decodeBytes op b1 b2 = i := by
  cases i with
  | adc o | sbc o | and o | ora o | eor o | bit o | asl o | lsr o | rol o | ror o | cmp o | cpx o | cpy o | inc o
  | dec o | lda o | ldx o | ldy o | sta o | stx o | sty o | jmp o =>
    rw [Operand.eq_withValue_of_prefix hpre]
    cases o <;> cases hop <;> rfl
  | bcc d | bcs d | beq d | bne d | bmi d | bpl d | bvc d | bvs d =>
    cases hop
    cases eq_of_singleton_prefix hpre
    rfl
  | jsr w =>
    cases hop
    cases eq_joinBytes_of_prefix hpre
    rfl
  | undImp b =>
    obtain ⟨hb, rfl⟩ : b ∈ Config.undocImp ∧ b = op := by simpa [opcodeOf] using hop
    exact decodeBytes_undocImp hb b1 b2
  | undAbx b w =>
    obtain ⟨hb, rfl⟩ : b ∈ Config.undocAbx ∧ b = op := by simpa [opcodeOf] using hop
    rw [eq_joinBytes_of_prefix hpre]
    exact decodeBytes_undocAbx hb b1 b2
  | _ => cases hop; rfl

/-- A list of at most two bytes begins the first two bytes of any list it begins, padded with zeros. -/
theorem isPrefix_first_two {l : List Byte} (hl : l.length ≤ 2) (rest : List Byte) :
    l <+: [(l ++ rest).getD 0 0, (l ++ rest).getD 1 0] := by
  match l, hl with
  | [], _ => exact List.nil_prefix
  | [_], _ => simp
  | [_, _], _ => simp

/-- The operand bytes are as many as the opcode byte asks for, so that `decode` neither refuses them nor takes more. -/
theorem decode_of_opcodeOf {i : Instr} {b : Byte} (hb : opcodeOf i = some b) (rest : List Byte) :
    decode (b :: i.operandBytes ++ rest) = .ok (i, rest) := by
  have hops : i.operandBytes.length + 1 = i.length := i.operandBytes_length
  have hle : i.length ≤ 3 := i.mode.length_bounds.2
  have hdec := decodeBytes_of_opcodeOf hb (isPrefix_first_two (by omega) rest)
  have hlen : opcodeLength b = i.operandBytes.length + 1 := by rw [← decodeBytes_length, hdec, hops]
  rw [List.cons_append, decode_cons_of_le (by simp [hlen]), hdec, hlen]
  simp

/-! ### The obligations -/

/-- Settles O1: a well-formed instruction has an opcode byte, and `decode_of_opcodeOf` at it. -/
theorem decodeOfEncodeIsIdentity : Obligations.DecodeOfEncodeIsIdentity := by
  unfold Obligations.DecodeOfEncodeIsIdentity
  intro i rest hwf
  obtain ⟨b, hb⟩ := Option.isSome_iff_exists.mp ((opcodeOf_isSome i).trans hwf)
  rw [encode_of_opcodeOf hb]
  exact decode_of_opcodeOf hb rest

/-- Settles O2: the encoding is the opcode byte and as many of the other two as the length leaves (R60). -/
theorem everyByteIsACompleteInstruction : Obligations.EveryByteIsACompleteInstruction := by
  unfold Obligations.EveryByteIsACompleteInstruction
  intro b0 b1 b2
  refine ⟨decodeBytes_wf b0 b1 b2, ?_, fun s => (exec_updates _ s).imp fun _ h => h.1⟩
  rw [encode_decodeBytes]
  exact List.cons_prefix_cons.mpr ⟨rfl, List.take_prefix _ _⟩

/-- Settles O3: the length is that of the decoded mode, and a list shorter than it is the decoder's only error. -/
theorem lengthFollowsFromOpcodeByte : Obligations.LengthFollowsFromOpcodeByte := by
  unfold Obligations.LengthFollowsFromOpcodeByte
  intro b0 rest
  obtain ⟨hpos, hle⟩ := opcodeLength_bounds b0
  refine ⟨hpos, hle, decodeBytes_length b0, ?_, fun h => ⟨_, _, decode_cons_of_le h, rfl⟩⟩
  rintro ⟨i, tail, hdec, -⟩
  by_contra hshort
  rw [decode_cons_of_lt (by omega)] at hdec
  cases hdec

/-- Settles O4: the thirteen words, evaluated. -/
theorem wordsWrittenOutDecode : Obligations.WordsWrittenOutDecode := by
  unfold Obligations.WordsWrittenOutDecode
  and_intros <;> rfl

end Sys2Proof
end

section
/-! PROOFS. The addressing modes and the fetch helper (40_addressing_modes.md R82 to R93): the arithmetic of an index,
of a page-zero pointer and of an indirect pointer, and the operand byte that stands after the opcode byte. -/

namespace Sys2Proof.Machine

open Sys2Proof

/-! ### Addresses in exact arithmetic -/

@[simp] theorem zext16_toNat (v : Byte) : (zext16 v).toNat = v.toNat :=
  BitVec.toNat_setWidth_of_le (by decide)

theorem zext16_eq_ofNat (v : Byte) : zext16 v = BitVec.ofNat 16 v.toNat := by
  rw [← zext16_toNat, BitVec.ofNat_toNat, BitVec.setWidth_eq]

theorem indexed_addr_toNat (base : Word) (index : Byte) :
    (indexed base index).addr.toNat = (base.toNat + index.toNat) % 65536 := by
  simp [indexed, BitVec.toNat_add]

/-- The extra compares high bytes, and the high byte is the page (R87, R88, R91). -/
theorem indexed_ax_iff (base : Word) (index : Byte) :
    (indexed base index).ax = true ↔ (indexed base index).addr.toNat / 256 ≠ base.toNat / 256 := by
  rw [← hi8_toNat, ← hi8_toNat, Ne, BitVec.toNat_inj]
  simp [indexed]

/-- Both bytes of a page-zero pointer lie in page zero (R90, R91; UNVERIFIED, log 11). -/
theorem State.zeroPageWord_toNat (s : State) (zp : Byte) :
    (s.zeroPageWord zp).toNat =
      256 * (s.read (BitVec.ofNat 16 ((zp.toNat + 1) % 256))).toNat + (s.read (BitVec.ofNat 16 zp.toNat)).toNat := by
  simp [State.zeroPageWord, joinBytes_toNat, zext16_eq_ofNat, BitVec.toNat_add, Nat.mul_comm]

/-- The page of the word at a page-zero pointer is its high byte. -/
theorem State.zeroPageWord_page (s : State) (zp : Byte) :
    (s.zeroPageWord zp).toNat / 256 = (s.read (BitVec.ofNat 16 ((zp.toNat + 1) % 256))).toNat := by
  rw [s.zeroPageWord_toNat, Nat.mul_add_div (by decide), Nat.div_eq_of_lt (BitVec.isLt _), Nat.add_zero]

/-- The high byte of an indirect target lies after the low one, in the same page (R89). -/
theorem indirectHigh_eq_ofNat (ptr : Word) :
    indirectHigh ptr = BitVec.ofNat 16 (256 * (ptr.toNat / 256) + (ptr.toNat + 1) % 256) := by
  have hptr : ptr.toNat < 65536 := ptr.isLt
  have hlast : lo8 ptr = 0xFF ↔ ptr.toNat % 256 = 255 := by rw [← BitVec.toNat_inj, lo8_toNat]; rfl
  apply BitVec.eq_of_toNat_eq
  simp only [indirectHigh, hlast]
  split
  next hwrap =>
    simp only [joinBytes_toNat, hi8_toNat, BitVec.toNat_ofNat, BitVec.reduceToNat]
    omega
  next hinside =>
    simp only [BitVec.toNat_add, BitVec.toNat_ofNat, BitVec.reduceToNat]
    omega

/-- Settles O9: an indexed mode by the arithmetic of `indexed`, an indirect one by that of its pointer. -/
theorem modesResolveAsTheirRulesSay : Obligations.ModesResolveAsTheirRulesSay := by
  unfold Obligations.ModesResolveAsTheirRulesSay
  intro s d w
  refine ⟨rfl, ⟨zext16_toNat d, rfl⟩, ⟨?zpx, rfl⟩, ⟨?zpy, rfl⟩, rfl, ⟨?abx, ?abxExtra⟩, ⟨?aby, ?abyExtra⟩, ⟨?izx, rfl⟩,
    ⟨?izy, ?izyExtra⟩, ⟨?ind, rfl⟩⟩
  case zpx => exact (zext16_toNat _).trans (BitVec.toNat_add d s.x)
  case zpy => exact (zext16_toNat _).trans (BitVec.toNat_add d s.y)
  case abx => exact indexed_addr_toNat w s.x
  case abxExtra => exact indexed_ax_iff w s.x
  case aby => exact indexed_addr_toNat w s.y
  case abyExtra => exact indexed_ax_iff w s.y
  case izx =>
    have h := s.zeroPageWord_toNat (d + s.x)
    rwa [BitVec.toNat_add, Nat.mod_add_mod] at h
  case izy =>
    rw [← s.zeroPageWord_toNat]
    exact indexed_addr_toNat (s.zeroPageWord d) s.y
  case izyExtra =>
    rw [← s.zeroPageWord_page]
    exact indexed_ax_iff (s.zeroPageWord d) s.y
  case ind =>
    rw [← indirectHigh_eq_ofNat, Nat.mul_comm]
    exact joinBytes_toNat _ _

/-! ### The fetch helper -/

/-- The only operand byte of an instruction at `pc` stands right after its opcode byte. -/
theorem State.read_of_instrAt_operandBytes {s : State} {d : Byte} (h : s.instrAt.operandBytes = [d]) :
    s.read (s.pc + 1) = d := by
  rw [State.instrAt, decodeBytes_operandBytes] at h
  have hpre : [d] <+: [s.read (s.pc + 1), s.read (s.pc + 2)] := h ▸ List.take_prefix _ _
  exact (eq_of_singleton_prefix hpre).symm

theorem fetchOperand_of_memory_mode {o : Operand} (h : o.mode ∉ [Mode.IMP, .IMM]) (s : State) :
    fetchOperand o s = s.read (resolve o s).addr := by
  cases o with
  | imp | imm => exact absurd h (by simp [Operand.mode])
  | _ => rfl

/-- Settles O10: in Immediate mode the decoder took the operand from the byte at the resolved address (log 20). -/
theorem fetchHelperDeliversTheOperand : Obligations.FetchHelperDeliversTheOperand := by
  unfold Obligations.FetchHelperDeliversTheOperand
  intro s o
  refine ⟨?implied, fun ho => fetchOperand_of_memory_mode ho s, ?immediate⟩
  case implied =>
    rintro rfl
    rfl
  case immediate =>
    rintro d rfl hbytes
    exact (State.read_of_instrAt_operandBytes hbytes).symm

end Sys2Proof.Machine
end

section
/-! PROOFS. What the statement about an instruction with an operand asks, from what the model says once: its encodings
from the encoder's table, its frame from the tables of R10, R17 and R53, its cost from the base of its mode. -/

namespace Sys2Proof.Machine

open Sys2Proof Sys2Proof.Claims

/-! ### Encodings -/

/-- An instruction whose opcode byte the encoder looks up by mode has the forms of that table, and each row's bytes
decode to its form. -/
theorem encodedAs_of_opcodeOf {mk : Operand → Instr} {rows : List FormRow}
    (hop : ∀ o, opcodeOf (mk o) = (rows.map fun row => (row.1, row.2.1)).lookup o.mode)
    (hrows : ∀ row ∈ rows, (rows.map fun row => (row.1, row.2.1)).lookup row.1 = some row.2.1)
    (hbytes : ∀ o, (mk o).operandBytes = operandBytes o) : EncodedAs mk rows := by
  refine fun o => ⟨?forms, fun row hrow hmode rest => ?decodes⟩
  case forms =>
    rw [← opcodeOf_isSome, hop, List.lookup_isSome_iff]
    simp [@eq_comm _ o.mode]
  case decodes =>
    have hb : opcodeOf (mk o) = some row.2.1 := by rw [hop, ← hmode, hrows row hrow]
    rw [← hbytes]
    exact decode_of_opcodeOf hb rest

/-! ### Frames and costs -/

theorem exec_frame {i : Instr} {s t : State} {regs : List Reg} {flags : List StatusFlag} (h : exec i s = .next t)
    (hregs : ∀ r, writesReg r i = true → r ∈ regs) (hflags : ∀ f, writesFlag f i = true → f ∈ flags) :
    Frame regs flags (writtenAddresses i s) s t := by
  have hupd := exec_updates_of_next h
  refine ⟨fun r hr => hupd.reg_eq ?_, fun f hf => hupd.flag_eq ?_, hupd.read_eq, hupd.inputs_eq⟩
  · exact Bool.eq_false_of_not_eq_true fun hw => hr (hregs r hw)
  · exact Bool.eq_false_of_not_eq_true fun hw => hf (hflags f hw)

theorem costsAs_of_formCost {rows : List FormRow} {ox : Bool} {o : Operand} {s t : State} {base : Nat}
    (hbase : ∀ row ∈ rows, row.1 = o.mode → base = row.2.2) (ht : t.countdown = formCost base ox o s) :
    CostsAs rows ox o s t := by
  intro row hrow hmode
  rw [ht, formCost, hbase row hrow hmode]
  simp [and_comm]

/-- What is left to show of an instruction with an operand: that it runs to its result, past its bytes, at the cost of
its form. -/
theorem operandForms_of_runs {mk : Operand → Instr} {rows : List FormRow} {ox : Bool} {regs : Operand → List Reg}
    {flags : List StatusFlag} {stored : Operand → State → List Word} {result : Operand → State → State → Prop}
    {base : Operand → Nat} (hencoded : EncodedAs mk rows)
    (hbase : ∀ o, ∀ row ∈ rows, row.1 = o.mode → base o = row.2.2)
    (hregs : ∀ o r, writesReg r (mk o) = true → r ∈ regs o)
    (hflags : ∀ o f, writesFlag f (mk o) = true → f ∈ flags)
    (hstored : ∀ o s, writtenAddresses (mk o) s = stored o s)
    (hruns : ∀ o s, (mk o).wf = true → ∃ t, exec (mk o) s = .next t ∧ result o s t ∧
      t.pc = s.pcAfter o.mode.length ∧ t.countdown = formCost (base o) ox o s) :
    OperandForms mk rows ox regs flags stored result := by
  refine ⟨hencoded, fun o s hwf => ?_⟩
  obtain ⟨t, ht, hresult, hpc, hcost⟩ := hruns o s hwf
  have hframe := exec_frame ht (hregs o) (hflags o)
  rw [hstored] at hframe
  exact ⟨t, ht, hresult, hframe, hpc, costsAs_of_formCost (hbase o) hcost⟩

/-! ### Zero and Negative (R18) -/

/-- Bit 7 of a byte, in exact arithmetic. -/
theorem getLsbD_seven_iff (v : Byte) : v.getLsbD 7 = true ↔ 128 ≤ v.toNat := by
  have hmsb : v.getLsbD 7 = decide (128 ≤ v.toNat) := v.msb_eq_getLsbD_last.symm.trans v.msb_eq_decide
  rw [hmsb, decide_eq_true_iff]

theorem znFrom_of_flags {v : Byte} {t : State} (hZ : t.flag .Z = (v == 0)) (hN : t.flag .N = v.getLsbD 7) :
    ZNFrom v t :=
  ⟨by simp [hZ], by rw [hN, getLsbD_seven_iff]⟩

end Sys2Proof.Machine
end

section
/-! PROOFS. Add and subtract with carry (41_add_subtract.md R100 to R102): AddCore in exact arithmetic, and subtraction
as the addition of the complement. -/

namespace Sys2Proof.Machine

open Sys2Proof Sys2Proof.Claims

/-! ### AddCore (R100) -/

@[simp] theorem addCore_pc (v : Byte) (s : State) : (addCore v s).pc = s.pc := rfl

/-- The 16-bit intermediate holds the whole sum. -/
theorem addWide_toNat (a v : Byte) (c : Bool) : (addWide a v c).toNat = a.toNat + v.toNat + c.toNat := by
  have ha : a.toNat < 256 := a.isLt
  have hv : v.toNat < 256 := v.isLt
  cases c <;> simp [addWide] <;> omega

/-- The Overflow formula compares sign bits: those of accumulator and byte agree, and the result's differs. -/
theorem addOverflow_iff_signs (a v r : Byte) :
    addOverflow a v r = true ↔ (128 ≤ a.toNat ↔ 128 ≤ v.toNat) ∧ ¬(128 ≤ a.toNat ↔ 128 ≤ r.toNat) := by
  simp only [← getLsbD_seven_iff]
  simp [addOverflow]

/-- Overflow of a sum: the signed result leaves -128 to 127. -/
theorem addOverflow_addWide_iff (a v : Byte) (c : Bool) :
    addOverflow a v (lo8 (addWide a v c)) = true ↔
      a.toInt + v.toInt + c.toNat < -128 ∨ 127 < a.toInt + v.toInt + c.toNat := by
  have ha : a.toNat < 256 := a.isLt
  have hv : v.toNat < 256 := v.isLt
  have hc : c.toNat ≤ 1 := c.toNat_le
  rw [addOverflow_iff_signs, lo8_toNat, addWide_toNat, BitVec.toInt_eq_toNat_cond, BitVec.toInt_eq_toNat_cond]
  split_ifs <;> omega

theorem addCore_addsTo (v : Byte) (s : State) : AddsTo s.a v (s.flag .C) (addCore v s) := by
  have hcarry : (addCore v s).flag .C = decide (255 < (addWide s.a v (s.flag .C)).toNat) := by simp [addCore]
  have hoverflow : (addCore v s).flag .V = addOverflow s.a v (lo8 (addWide s.a v (s.flag .C))) := by simp [addCore]
  refine ⟨?sum, ?carry, znFrom_of_flags ?zero ?negative, ?overflow⟩
  case sum => simp [addCore, lo8_toNat, addWide_toNat]
  case carry => simp [hcarry, addWide_toNat]
  case zero => simp [addCore]
  case negative => simp [addCore, lo8]
  case overflow => rw [hoverflow, addOverflow_addWide_iff]

/-! ### Subtraction -/

theorem toNat_xor_0xFF (m : Byte) : (m ^^^ 0xFF).toNat = 255 - m.toNat := by
  have hnot : m ^^^ 0xFF = ~~~m := BitVec.xor_allOnes
  rw [hnot, BitVec.toNat_not]

theorem toInt_xor_0xFF (m : Byte) : (m ^^^ 0xFF).toInt = -1 - m.toInt := by
  have hm : m.toNat < 256 := m.isLt
  rw [BitVec.toInt_eq_toNat_cond, BitVec.toInt_eq_toNat_cond, toNat_xor_0xFF]
  split_ifs <;> omega

/-- Adding the one's complement of a byte subtracts the byte, the carry being the absence of a borrow (R102). -/
theorem subtractsTo_of_addsTo_complement {a m : Byte} {c : Bool} {t : State} (h : AddsTo a (m ^^^ 0xFF) c t) :
    SubtractsTo a m c t := by
  have hm : m.toNat < 256 := m.isLt
  have hc : c.toNat ≤ 1 := c.toNat_le
  obtain ⟨hsum, hcarry, hzn, hoverflow⟩ := h
  rw [toNat_xor_0xFF] at hsum hcarry
  rw [toInt_xor_0xFF] at hoverflow
  refine ⟨by omega, ?_, hzn, ?_⟩
  · rw [hcarry]
    omega
  · rw [hoverflow]
    omega

/-! ### The obligations -/

/-- Settles O11: `addCore_addsTo` on the fetched operand. -/
theorem adcAddsWithCarry : Obligations.AdcAddsWithCarry := by
  unfold Obligations.AdcAddsWithCarry
  refine operandForms_of_runs (base := readCycles) ?encoded ?base (by simp [writesReg]) (by simp [writesFlag])
    (fun _ _ => rfl) fun o s _ => ⟨_, rfl, ?result, rfl, rfl⟩
  case encoded => exact encodedAs_of_opcodeOf (fun _ => rfl) (by decide) fun _ => rfl
  case base => intro o; cases o <;> simp [Operand.mode, readCycles]
  case result => exact addCore_addsTo (fetchOperand o s) (afterFetch o s)

/-- Settles O12: `addCore_addsTo` on the complement of the fetched operand (D11, log 9). -/
theorem sbcSubtractsWithBorrow : Obligations.SbcSubtractsWithBorrow := by
  unfold Obligations.SbcSubtractsWithBorrow
  refine operandForms_of_runs (base := readCycles) ?encoded ?base (by simp [writesReg]) (by simp [writesFlag])
    (fun _ _ => rfl) fun o s _ => ⟨_, rfl, ?result, rfl, rfl⟩
  case encoded => exact encodedAs_of_opcodeOf (fun _ => rfl) (by decide) fun _ => rfl
  case base => intro o; cases o <;> simp [Operand.mode, readCycles]
  case result =>
    exact subtractsTo_of_addsTo_complement (addCore_addsTo (fetchOperand o s ^^^ 0xFF) (afterFetch o s))

end Sys2Proof.Machine
end

section
/-! PROOFS. Logical operations (42_logical.md R110 to R113): AND, ORA and EOR by what `combine` does of any operation on
bytes, BIT by the bits of its operand. -/

namespace Sys2Proof.Machine

open Sys2Proof Sys2Proof.Claims

/-! ### Base cycles of the reading instructions (R270) -/

/-- The cells that a reading instruction's rows can have. -/
def readCells : List (Mode × Nat) :=
  [(.IMM, 2), (.ZP0, 3), (.ZPX, 4), (.ZPY, 4), (.ABS, 4), (.ABX, 4), (.ABY, 4), (.IZX, 6), (.IZY, 5)]

theorem readCycles_of_mem_readCells {o : Operand} {n : Nat} (h : (o.mode, n) ∈ readCells) : readCycles o = n := by
  cases o <;> simp_all [readCells, Operand.mode, readCycles]

/-- Rows whose cells are those of R270 have the base that the model reads from the operand. -/
theorem readCycles_of_rows {rows : List FormRow} (hcells : ∀ row ∈ rows, (row.1, row.2.2) ∈ readCells) (o : Operand) :
    ∀ row ∈ rows, row.1 = o.mode → readCycles o = row.2.2 :=
  fun row hrow hmode => readCycles_of_mem_readCells (hmode ▸ hcells row hrow)

/-! ### AND, ORA, EOR (R110 to R112) -/

@[simp] theorem combine_pc (f : Byte → Byte → Byte) (o : Operand) (s : State) :
    (combine f o s).pc = s.pcAfter o.mode.length := rfl

@[simp] theorem combine_countdown (f : Byte → Byte → Byte) (o : Operand) (s : State) :
    (combine f o s).countdown = formCost (readCycles o) true o s := rfl

@[simp] theorem combine_a (f : Byte → Byte → Byte) (o : Operand) (s : State) :
    (combine f o s).a = f s.a (fetchOperand o s) := rfl

theorem combine_znFrom (f : Byte → Byte → Byte) (o : Operand) (s : State) :
    ZNFrom (combine f o s).a (combine f o s) :=
  znFrom_of_flags (by simp [combine]) (by simp [combine])

/-- An instruction that runs as `combine` of an operation on bytes has the forms of its encodings. -/
theorem logicForms_of_combine {mk : Operand → Instr} {rows : List FormRow} {f : Byte → Byte → Byte}
    (hexec : ∀ o s, exec (mk o) s = .next (combine f o s)) (hencoded : EncodedAs mk rows)
    (hcells : ∀ row ∈ rows, (row.1, row.2.2) ∈ readCells)
    (hregs : ∀ o r, writesReg r (mk o) = true → r ∈ [Reg.A])
    (hflags : ∀ o g, writesFlag g (mk o) = true → g ∈ [StatusFlag.Z, .N])
    (hstored : ∀ o s, writtenAddresses (mk o) s = []) : LogicForms mk rows f :=
  operandForms_of_runs hencoded (readCycles_of_rows hcells) hregs hflags hstored fun o s _ =>
    ⟨combine f o s, hexec o s, ⟨combine_a f o s, combine_znFrom f o s⟩, combine_pc f o s, combine_countdown f o s⟩

/-- Settles O14: each of the three runs as `combine` of its own operation. -/
theorem logicalOperationsCombineIntoA : Obligations.LogicalOperationsCombineIntoA := by
  unfold Obligations.LogicalOperationsCombineIntoA
  refine ⟨?and, ?ora, ?eor⟩ <;>
    exact logicForms_of_combine (fun _ _ => rfl) (encodedAs_of_opcodeOf (fun _ => rfl) (by decide) fun _ => rfl)
      (by decide) (by simp [writesReg]) (by simp [writesFlag]) fun _ _ => rfl

/-! ### BIT (R113) -/

/-- Bit 6 of a byte, in exact arithmetic. -/
theorem getLsbD_six_iff (v : Byte) : v.getLsbD 6 = true ↔ 64 ≤ v.toNat % 128 := by
  have hbit : v.getLsbD 6 = decide (v.toNat / 2 ^ 6 % 2 = 1) := Nat.testBit_eq_decide_div_mod_eq
  rw [hbit, decide_eq_true_iff]
  omega

theorem setBitFlags_tests (a m : Byte) (s : State) :
    ((s.setBitFlags a m).flag .Z = true ↔ a &&& m = 0) ∧
    ((s.setBitFlags a m).flag .N = true ↔ 128 ≤ m.toNat) ∧
    ((s.setBitFlags a m).flag .V = true ↔ 64 ≤ m.toNat % 128) := by
  refine ⟨?zero, ?negative, ?overflow⟩
  case zero => simp
  case negative => rw [← getLsbD_seven_iff, State.setBitFlags_flag]
  case overflow => rw [← getLsbD_six_iff, State.setBitFlags_flag]

/-- Settles O15: `setBitFlags_tests` on the accumulator and the fetched operand (D15, log 13). -/
theorem bitTestsMemoryAgainstA : Obligations.BitTestsMemoryAgainstA := by
  unfold Obligations.BitTestsMemoryAgainstA
  refine operandForms_of_runs (base := readCycles) ?encoded (readCycles_of_rows (by decide)) (by simp [writesReg])
    (by simp [writesFlag]) (fun _ _ => rfl) fun o s _ => ⟨_, rfl, ?result, rfl, rfl⟩
  case encoded => exact encodedAs_of_opcodeOf (fun _ => rfl) (by decide) fun _ => rfl
  case result => exact setBitFlags_tests s.a (fetchOperand o s) (afterFetch o s)

end Sys2Proof.Machine
end

section
/-! PROOFS. Shifts and rotates (43_shift_rotate.md R120 to R124): what `shiftOperand` does of any rule for the bit
shifted out and the byte put back, then the rules of ASL, LSR, ROL and ROR in exact arithmetic. -/

namespace Sys2Proof.Machine

open Sys2Proof Sys2Proof.Claims

/-! ### Base cycles of the instructions that read, modify and write (R270) -/

/-- The cells that the rows of a shift, an increment or a decrement can have. -/
def modifyCells : List (Mode × Nat) := [(.IMP, 2), (.ZP0, 5), (.ZPX, 6), (.ABS, 6), (.ABX, 7)]

theorem modifyCycles_of_mem_modifyCells {o : Operand} {n : Nat} (h : (o.mode, n) ∈ modifyCells) :
    modifyCycles o = n := by
  cases o <;> simp_all [modifyCells, Operand.mode, modifyCycles]

/-- Rows whose cells are those of R270 have the base that the model reads from the operand. -/
theorem modifyCycles_of_rows {rows : List FormRow} (hcells : ∀ row ∈ rows, (row.1, row.2.2) ∈ modifyCells)
    (o : Operand) : ∀ row ∈ rows, row.1 = o.mode → modifyCycles o = row.2.2 :=
  fun row hrow hmode => modifyCycles_of_mem_modifyCells (hmode ▸ hcells row hrow)

/-! ### Any shift (R120) -/

section

variable (carryOut : Byte → Bool) (result : Byte → Bool → Byte) (o : Operand) (s : State)

@[simp] theorem shiftOperand_pc : (shiftOperand carryOut result o s).pc = s.pcAfter o.mode.length := by
  simp [shiftOperand]

@[simp] theorem shiftOperand_countdown :
    (shiftOperand carryOut result o s).countdown = formCost (modifyCycles o) false o s := rfl

/-- The result goes back where the operand came from. -/
theorem putBack_shiftOperand :
    putBack o s (shiftOperand carryOut result o s) = result (fetchOperand o s) (s.flag .C) := by
  by_cases ho : o = .imp
  · subst ho
    rfl
  · simp [putBack, shiftOperand, ho]

theorem shiftOperand_znFrom :
    ZNFrom (putBack o s (shiftOperand carryOut result o s)) (shiftOperand carryOut result o s) := by
  rw [putBack_shiftOperand]
  exact znFrom_of_flags (by simp [shiftOperand]) (by simp [shiftOperand])

theorem shiftOperand_flag_C :
    (shiftOperand carryOut result o s).flag .C = carryOut (fetchOperand o s) := by
  simp [shiftOperand]

end

/-- An instruction that runs as `shiftOperand` of a rule on bytes has the forms of that rule in exact arithmetic. -/
theorem shiftForms_of_shiftOperand {mk : Operand → Instr} {rows : List FormRow} {carryOut : Byte → Bool}
    {result : Byte → Bool → Byte} {natResult : Nat → Nat → Nat} {natCarry : Nat → Prop}
    (hexec : ∀ o s, exec (mk o) s = .next (shiftOperand carryOut result o s))
    (hrule : ∀ m c, result m c = BitVec.ofNat 8 (natResult m.toNat c.toNat) ∧
      (carryOut m = true ↔ natCarry m.toNat))
    (hencoded : EncodedAs mk rows) (hcells : ∀ row ∈ rows, (row.1, row.2.2) ∈ modifyCells)
    (hregs : ∀ o r, writesReg r (mk o) = true → r ∈ if o = .imp then [Reg.A] else [])
    (hflags : ∀ o f, writesFlag f (mk o) = true → f ∈ [StatusFlag.C, .Z, .N])
    (hstored : ∀ o s, writtenAddresses (mk o) s = if o = .imp then [] else [(resolve o s).addr]) :
    ShiftForms mk rows natResult natCarry := by
  refine operandForms_of_runs hencoded (modifyCycles_of_rows hcells) hregs hflags hstored fun o s _ => ?_
  obtain ⟨hresult, hcarry⟩ := hrule (fetchOperand o s) (s.flag .C)
  refine ⟨_, hexec o s, ⟨?putBack, shiftOperand_znFrom .., ?carry⟩, shiftOperand_pc .., shiftOperand_countdown ..⟩
  case putBack => rw [putBack_shiftOperand, hresult]
  case carry => rw [shiftOperand_flag_C, hcarry]

/-! ### The four rules (R121 to R124) -/

/-- Bit 0 of a byte, in exact arithmetic. -/
theorem getLsbD_zero_iff (v : Byte) : v.getLsbD 0 = true ↔ v.toNat % 2 = 1 := by
  rw [BitVec.getLsbD, Nat.testBit_zero, decide_eq_true_iff]

/-- Settles O16: each of the four runs as `shiftOperand` of its own rule, a left shift moving out bit 7 and a right
shift bit 0; each result is the one in exact arithmetic. -/
theorem shiftsMoveOneBitThroughCarry : Obligations.ShiftsMoveOneBitThroughCarry := by
  unfold Obligations.ShiftsMoveOneBitThroughCarry
  refine ⟨?asl, ?lsr, ?rol, ?ror⟩ <;>
    refine shiftForms_of_shiftOperand (fun _ _ => rfl) ?_
      (encodedAs_of_opcodeOf (fun _ => rfl) (by decide) fun _ => rfl) (by decide) (by simp [writesReg])
      (by simp [writesFlag]) fun _ _ => rfl
  case asl => exact fun m _ => ⟨(ofNat_two_mul_toNat m).symm, getLsbD_seven_iff m⟩
  case lsr => exact fun m _ => ⟨(ofNat_toNat_div_two m).symm, getLsbD_zero_iff m⟩
  case rol => exact fun m c => ⟨(ofNat_two_mul_toNat_add m c).symm, getLsbD_seven_iff m⟩
  case ror => exact fun m c => ⟨(ofNat_toNat_div_two_add m c).symm, getLsbD_zero_iff m⟩

end Sys2Proof.Machine
end

section
/-! PROOFS. What the statement about a one-byte instruction asks, and Zero and Negative of an operation that sets them
from the byte it puts somewhere (10_state.md R18). -/

namespace Sys2Proof.Machine

open Sys2Proof Sys2Proof.Claims

/-- What is left to show of a one-byte instruction that runs as `implied` of its work: its result. -/
theorem impliedForm_of_implied {i : Instr} {op : Byte} {base : Nat} {work : State → State} {regs : List Reg}
    {flags : List StatusFlag} {stored : State → List Word} {result : State → State → Prop}
    (hop : opcodeOf i = some op) (hbytes : i.operandBytes = [])
    (hexec : ∀ s, exec i s = .next (implied base work s))
    (hregs : ∀ r, writesReg r i = true → r ∈ regs) (hflags : ∀ f, writesFlag f i = true → f ∈ flags)
    (hstored : ∀ s, writtenAddresses i s = stored s) (hresult : ∀ s, result s (implied base work s)) :
    ImpliedForm i op base regs flags stored result := by
  refine ⟨fun rest => ?decodes, ?wf, fun s => ⟨_, hexec s, hresult s, ?frame, rfl⟩⟩
  case decodes =>
    have hdec := decode_of_opcodeOf hop rest
    rwa [hbytes] at hdec
  case wf => rw [← opcodeOf_isSome, hop, Option.isSome_some]
  case frame =>
    rw [← hstored]
    exact exec_frame (hexec s) hregs hflags

@[simp] theorem implied_znFrom_iff (v : Byte) (n : Nat) (work : State → State) (s : State) :
    ZNFrom v (implied n work s) ↔ ZNFrom v (work (s.setPc (s.pcAfter 1))) := Iff.rfl

theorem State.setZN_znFrom (s : State) (v : Byte) : ZNFrom v (s.setZN v) :=
  znFrom_of_flags (by simp) (by simp)

@[simp] theorem State.setRegZN_reg_same (s : State) (r : Reg) (v : Byte) : (s.setRegZN r v).reg r = v := by
  simp [State.setRegZN]

@[simp] theorem State.setRegZN_pc (s : State) (r : Reg) (v : Byte) : (s.setRegZN r v).pc = s.pc := by
  simp [State.setRegZN]

theorem State.setRegZN_znFrom (s : State) (r : Reg) (v : Byte) : ZNFrom v (s.setRegZN r v) :=
  (s.setReg r v).setZN_znFrom v

end Sys2Proof.Machine
end

section
/-! PROOFS. Compare, increment and decrement (44_compare_incdec.md R130 to R139): the 16-bit difference by its low byte,
and what `compareReg`, `modifyMemory` and the register forms do of any step of a byte. -/

namespace Sys2Proof.Machine

open Sys2Proof Sys2Proof.Claims

/-! ### Compare (R130) -/

/-- The low byte of the 16-bit difference is the difference of the bytes. -/
theorem lo8_compareWide (r m : Byte) : lo8 (compareWide r m) = r - m := by
  apply BitVec.eq_of_toNat_eq
  rw [lo8_toNat, compareWide]
  bv_omega

theorem compareWide_getLsbD_seven (r m : Byte) : (compareWide r m).getLsbD 7 = (r - m).getLsbD 7 := by
  rw [← lo8_compareWide]
  simp [lo8]

theorem setCompareFlags_compares (r m : Byte) (s : State) :
    ((s.setCompareFlags r m).flag .C = true ↔ m.toNat ≤ r.toNat) ∧
    ((s.setCompareFlags r m).flag .Z = true ↔ r = m) ∧
    ((s.setCompareFlags r m).flag .N = true ↔ 128 ≤ (r.toNat + 256 - m.toNat) % 256) := by
  refine ⟨?carry, ?zero, ?negative⟩
  case carry => simp
  case zero => simp [lo8_compareWide, BitVec.sub_eq_iff_eq_add]
  case negative =>
    have hdiff : (r - m).toNat = (r.toNat + 256 - m.toNat) % 256 := by bv_omega
    rw [← hdiff, ← getLsbD_seven_iff, ← compareWide_getLsbD_seven, State.setCompareFlags_flag]

/-- An instruction that runs as `compareReg` of a register has the forms of its encodings. -/
theorem compareForms_of_compareReg {mk : Operand → Instr} {rows : List FormRow} {ox : Bool} {r : Reg}
    (hexec : ∀ o s, exec (mk o) s = .next (compareReg r ox o s)) (hencoded : EncodedAs mk rows)
    (hcells : ∀ row ∈ rows, (row.1, row.2.2) ∈ readCells)
    (hregs : ∀ o q, writesReg q (mk o) = true → q ∈ noRegs o)
    (hflags : ∀ o f, writesFlag f (mk o) = true → f ∈ [StatusFlag.C, .Z, .N])
    (hstored : ∀ o s, writtenAddresses (mk o) s = []) : CompareForms mk rows ox r :=
  operandForms_of_runs hencoded (readCycles_of_rows hcells) hregs hflags hstored fun o s _ =>
    ⟨_, hexec o s, setCompareFlags_compares (s.reg r) (fetchOperand o s) (afterFetch o s), rfl, rfl⟩

/-- Settles O17: each of the three runs as `compareReg` of its own register (D12, log 10). -/
theorem comparesSetCarryZeroNegative : Obligations.ComparesSetCarryZeroNegative := by
  unfold Obligations.ComparesSetCarryZeroNegative
  refine ⟨?cmp, ?cpx, ?cpy⟩ <;>
    exact compareForms_of_compareReg (fun _ _ => rfl) (encodedAs_of_opcodeOf (fun _ => rfl) (by decide) fun _ => rfl)
      (by decide) (by simp [writesReg]) (by simp [writesFlag]) fun _ _ => rfl

/-! ### One more and one less, modulo 256 -/

theorem toNat_add_one_eq_emod (m : Byte) : ((m + 1).toNat : Int) = ((m.toNat : Int) + 1) % 256 := by bv_omega

theorem toNat_sub_one_eq_emod (m : Byte) : ((m - 1).toNat : Int) = ((m.toNat : Int) + -1) % 256 := by bv_omega

/-! ### INC and DEC (R134, R135) -/

/-- The byte at the resolved address afterwards is the step of the fetched one. -/
theorem modifyMemory_read_resolved (f : Byte → Byte) (o : Operand) (s : State) :
    (modifyMemory f o s).read (resolve o s).addr = f (fetchOperand o s) := by
  simp [modifyMemory]

theorem modifyMemory_znFrom (f : Byte → Byte) (o : Operand) (s : State) :
    ZNFrom ((modifyMemory f o s).read (resolve o s).addr) (modifyMemory f o s) := by
  rw [modifyMemory_read_resolved]
  exact State.setZN_znFrom _ _

/-- An instruction with memory forms only that runs as `modifyMemory` of a step of a byte has the forms of that step. -/
theorem stepMemoryForms_of_modifyMemory {mk : Operand → Instr} {rows : List FormRow} {f : Byte → Byte} {delta : Int}
    (hexec : ∀ o s, exec (mk o) s = .next (modifyMemory f o s))
    (hstep : ∀ m, ((f m).toNat : Int) = ((m.toNat : Int) + delta) % 256) (hencoded : EncodedAs mk rows)
    (hmemory : ∀ m ∈ rows.map (·.1), m ∉ [Mode.IMP, .IMM])
    (hcells : ∀ row ∈ rows, (row.1, row.2.2) ∈ modifyCells)
    (hregs : ∀ o r, writesReg r (mk o) = true → r ∈ noRegs o)
    (hflags : ∀ o g, writesFlag g (mk o) = true → g ∈ [StatusFlag.Z, .N])
    (hstored : ∀ o s, writtenAddresses (mk o) s = storesOperand o s) : StepMemoryForms mk rows delta := by
  refine operandForms_of_runs hencoded (modifyCycles_of_rows hcells) hregs hflags hstored fun o s hwf => ?_
  have hmode : o.mode ∉ [Mode.IMP, .IMM] := hmemory _ ((hencoded o).1.mp hwf)
  refine ⟨_, hexec o s, ⟨?byte, modifyMemory_znFrom f o s⟩, rfl, rfl⟩
  rw [modifyMemory_read_resolved, fetchOperand_of_memory_mode hmode]
  exact hstep _

/-- Settles O18: INC runs as `modifyMemory` of one more, DEC of one less. -/
theorem incAndDecStepOneMemoryByte : Obligations.IncAndDecStepOneMemoryByte := by
  unfold Obligations.IncAndDecStepOneMemoryByte
  refine ⟨?inc, ?dec⟩ <;>
    refine stepMemoryForms_of_modifyMemory (fun _ _ => rfl) ?_
      (encodedAs_of_opcodeOf (fun _ => rfl) (by decide) fun _ => rfl) (by decide) (by decide) (by simp [writesReg])
      (by simp [writesFlag]) fun _ _ => rfl
  case inc => exact toNat_add_one_eq_emod
  case dec => exact toNat_sub_one_eq_emod

/-! ### INX, INY, DEX, DEY (R136 to R139) -/

/-- A one-byte instruction that replaces a register by a step of it, with Zero and Negative, has the form of that
step. -/
theorem stepRegisterForm_of_setRegZN {i : Instr} {op : Byte} {base : Nat} {r : Reg} {f : Byte → Byte} {delta : Int}
    (hexec : ∀ s, exec i s = .next (implied base (fun t => t.setRegZN r (f (t.reg r))) s))
    (hstep : ∀ m, ((f m).toNat : Int) = ((m.toNat : Int) + delta) % 256)
    (hop : opcodeOf i = some op) (hbytes : i.operandBytes = [])
    (hregs : ∀ q, writesReg q i = true → q ∈ [r]) (hflags : ∀ g, writesFlag g i = true → g ∈ [StatusFlag.Z, .N])
    (hstored : ∀ s, writtenAddresses i s = []) : StepRegisterForm i op base r delta := by
  refine impliedForm_of_implied hop hbytes hexec hregs hflags hstored fun s => ?_
  have hreg : (implied base (fun t => t.setRegZN r (f (t.reg r))) s).reg r = f (s.reg r) := by simp
  rw [hreg]
  refine ⟨hstep (s.reg r), ?zn, ?pc⟩
  case zn =>
    rw [implied_znFrom_iff, State.setPc_reg]
    exact State.setRegZN_znFrom _ r _
  case pc => simp [PastOneByte, State.pcAfter]

/-- Settles O19: INX and INY replace their register by one more, DEX and DEY by one less. -/
theorem indexRegistersStepByOne : Obligations.IndexRegistersStepByOne := by
  unfold Obligations.IndexRegistersStepByOne
  refine ⟨?inx, ?iny, ?dex, ?dey⟩
  case inx | iny =>
    exact stepRegisterForm_of_setRegZN (f := (· + 1)) (fun _ => rfl) toNat_add_one_eq_emod rfl rfl
      (by simp [writesReg]) (by simp [writesFlag]) fun _ => rfl
  case dex | dey =>
    exact stepRegisterForm_of_setRegZN (f := (· - 1)) (fun _ => rfl) toNat_sub_one_eq_emod rfl rfl
      (by simp [writesReg]) (by simp [writesFlag]) fun _ => rfl

end Sys2Proof.Machine
end

section
/-! PROOFS. Loads, stores and transfers (45_load_store_transfer.md R145 to R156): what `loadReg`, `storeReg` and the copy
of one register into another do for any registers, then each instruction as one of them. -/

namespace Sys2Proof.Machine

open Sys2Proof Sys2Proof.Claims

/-! ### Loads (R145 to R147) -/

@[simp] theorem loadReg_reg_same (r : Reg) (o : Operand) (s : State) : (loadReg r o s).reg r = fetchOperand o s := by
  simp [loadReg]

@[simp] theorem loadReg_pc (r : Reg) (o : Operand) (s : State) : (loadReg r o s).pc = s.pcAfter o.mode.length := by
  simp [loadReg]

@[simp] theorem loadReg_countdown (r : Reg) (o : Operand) (s : State) :
    (loadReg r o s).countdown = formCost (readCycles o) true o s := rfl

theorem loadReg_znFrom (r : Reg) (o : Operand) (s : State) : ZNFrom (fetchOperand o s) (loadReg r o s) :=
  (afterFetch o s).setRegZN_znFrom r (fetchOperand o s)

/-- An instruction that runs as `loadReg` of a register has the forms of its encodings. -/
theorem loadForms_of_loadReg {mk : Operand → Instr} {rows : List FormRow} {r : Reg}
    (hexec : ∀ o s, exec (mk o) s = .next (loadReg r o s)) (hencoded : EncodedAs mk rows)
    (hcells : ∀ row ∈ rows, (row.1, row.2.2) ∈ readCells)
    (hregs : ∀ o q, writesReg q (mk o) = true → q ∈ [r])
    (hflags : ∀ o f, writesFlag f (mk o) = true → f ∈ [StatusFlag.Z, .N])
    (hstored : ∀ o s, writtenAddresses (mk o) s = []) : LoadForms mk rows r :=
  operandForms_of_runs hencoded (readCycles_of_rows hcells) hregs hflags hstored fun o s _ =>
    ⟨_, hexec o s, ⟨loadReg_reg_same r o s, loadReg_znFrom r o s⟩, loadReg_pc r o s, loadReg_countdown r o s⟩

/-- Settles O20: each of the three runs as `loadReg` of its own register (D12, log 10). -/
theorem loadsWriteRegisterAndZN : Obligations.LoadsWriteRegisterAndZN := by
  unfold Obligations.LoadsWriteRegisterAndZN
  refine ⟨?lda, ?ldx, ?ldy⟩ <;>
    exact loadForms_of_loadReg (fun _ _ => rfl) (encodedAs_of_opcodeOf (fun _ => rfl) (by decide) fun _ => rfl)
      (by decide) (by simp [writesReg]) (by simp [writesFlag]) fun _ _ => rfl

/-! ### Stores (R148 to R150) -/

/-- The cells that the rows of a store can have (R270). -/
def storeCells : List (Mode × Nat) :=
  [(.ZP0, 3), (.ZPX, 4), (.ZPY, 4), (.ABS, 4), (.ABX, 5), (.ABY, 5), (.IZX, 6), (.IZY, 6)]

theorem storeCycles_of_mem_storeCells {o : Operand} {n : Nat} (h : (o.mode, n) ∈ storeCells) : storeCycles o = n := by
  cases o <;> simp_all [storeCells, Operand.mode, storeCycles]

/-- Rows whose cells are those of R270 have the base that the model reads from the operand. -/
theorem storeCycles_of_rows {rows : List FormRow} (hcells : ∀ row ∈ rows, (row.1, row.2.2) ∈ storeCells)
    (o : Operand) : ∀ row ∈ rows, row.1 = o.mode → storeCycles o = row.2.2 :=
  fun row hrow hmode => storeCycles_of_mem_storeCells (hmode ▸ hcells row hrow)

theorem storeReg_read_resolved (r : Reg) (o : Operand) (s : State) :
    (storeReg r o s).read (resolve o s).addr = s.reg r := by
  simp [storeReg]

@[simp] theorem storeReg_pc (r : Reg) (o : Operand) (s : State) : (storeReg r o s).pc = s.pcAfter o.mode.length := by
  simp [storeReg]

@[simp] theorem storeReg_countdown (r : Reg) (o : Operand) (s : State) :
    (storeReg r o s).countdown = formCost (storeCycles o) false o s := rfl

/-- An instruction that runs as `storeReg` of a register has the forms of its encodings. -/
theorem storeForms_of_storeReg {mk : Operand → Instr} {rows : List FormRow} {r : Reg}
    (hexec : ∀ o s, exec (mk o) s = .next (storeReg r o s)) (hencoded : EncodedAs mk rows)
    (hcells : ∀ row ∈ rows, (row.1, row.2.2) ∈ storeCells)
    (hregs : ∀ o q, writesReg q (mk o) = true → q ∈ noRegs o)
    (hflags : ∀ o f, writesFlag f (mk o) = true → f ∈ ([] : List StatusFlag))
    (hstored : ∀ o s, writtenAddresses (mk o) s = storesOperand o s) : StoreForms mk rows r :=
  operandForms_of_runs hencoded (storeCycles_of_rows hcells) hregs hflags hstored fun o s _ =>
    ⟨_, hexec o s, storeReg_read_resolved r o s, storeReg_pc r o s, storeReg_countdown r o s⟩

/-- Settles O21: each of the three runs as `storeReg` of its own register. -/
theorem storesWriteOneByteAndNoFlag : Obligations.StoresWriteOneByteAndNoFlag := by
  unfold Obligations.StoresWriteOneByteAndNoFlag
  refine ⟨?sta, ?stx, ?sty⟩ <;>
    exact storeForms_of_storeReg (fun _ _ => rfl) (encodedAs_of_opcodeOf (fun _ => rfl) (by decide) fun _ => rfl)
      (by decide) (by simp [writesReg]) (by simp [writesFlag]) fun _ _ => rfl

/-! ### Transfers (R151 to R156) -/

/-- A one-byte instruction that copies a register, with Zero and Negative, has the form of a transfer. -/
theorem transferForm_of_setRegZN {i : Instr} {op : Byte} {base : Nat} {src dst : Reg}
    (hexec : ∀ s, exec i s = .next (implied base (fun t => t.setRegZN dst (t.reg src)) s))
    (hop : opcodeOf i = some op) (hbytes : i.operandBytes = [])
    (hregs : ∀ q, writesReg q i = true → q ∈ [dst]) (hflags : ∀ f, writesFlag f i = true → f ∈ [StatusFlag.Z, .N])
    (hstored : ∀ s, writtenAddresses i s = []) : TransferForm i op base src dst := by
  refine impliedForm_of_implied hop hbytes hexec hregs hflags hstored fun s => ⟨?copy, ?zn, ?pc⟩
  case copy => simp
  case zn =>
    rw [implied_znFrom_iff, State.setPc_reg]
    exact State.setRegZN_znFrom _ dst _
  case pc => simp [PastOneByte, State.pcAfter]

/-- Settles O22: each of the four copies its source into its destination, with Zero and Negative. -/
theorem transfersCopyAndSetZN : Obligations.TransfersCopyAndSetZN := by
  unfold Obligations.TransfersCopyAndSetZN
  refine ⟨?tax, ?tay, ?txa, ?tya⟩ <;>
    exact transferForm_of_setRegZN (fun _ => rfl) rfl rfl (by simp [writesReg]) (by simp [writesFlag]) fun _ => rfl

theorem implied_setReg_copies (src dst : Reg) (n : Nat) (s : State) :
    (implied n (fun t => t.setReg dst (t.reg src)) s).reg dst = s.reg src ∧
      PastOneByte s (implied n (fun t => t.setReg dst (t.reg src)) s) := by
  simp [PastOneByte, State.pcAfter]

/-- Settles O23: TSX copies SP into X, TXS copies X into SP, and R17 gives neither a flag. -/
theorem stackPointerTransfersSetNoFlag : Obligations.StackPointerTransfersSetNoFlag := by
  unfold Obligations.StackPointerTransfersSetNoFlag
  refine ⟨?tsx, ?txs⟩ <;>
    refine impliedForm_of_implied rfl rfl (fun _ => rfl) (by simp [writesReg]) (by simp [writesFlag])
      (fun _ => rfl) ?_
  case tsx => exact implied_setReg_copies .SP .X 2
  case txs => exact implied_setReg_copies .X .SP 2

end Sys2Proof.Machine
end

section
/-! PROOFS. The stack (46_stack.md R165 to R170): push and pull at every stack pointer, then each of the four instructions
by what its push or its pull leaves. -/

namespace Sys2Proof.Machine

open Sys2Proof Sys2Proof.Claims

/-! ### Push and pull (R165, R166) -/

theorem stackAddr_toNat (p : Byte) : (stackAddr p).toNat = 256 + p.toNat := by
  simp only [stackAddr]
  bv_omega

theorem State.push_sp_toNat (s : State) (v : Byte) : (s.push v).sp.toNat = (s.sp.toNat + 255) % 256 := by
  rw [State.push_sp]
  bv_omega

theorem State.popped_sp_toNat (s : State) : s.popped.sp.toNat = (s.sp.toNat + 1) % 256 := by
  rw [State.popped_sp]
  bv_omega

theorem State.push_sameMem (s : State) (v : Byte) : SameMem [stackAddr s.sp] s (s.push v) := fun a ha => by
  rw [State.push_read, if_neg (List.ne_of_not_mem_cons ha)]

theorem State.push_popped_sp (s : State) (v : Byte) : (s.push v).popped.sp = s.sp := by
  rw [State.popped_sp, State.push_sp, BitVec.sub_add_cancel]

/-- A pull reads the location that its own step of `SP` reaches, which after a push is the one pushed to. -/
theorem State.push_pulled (s : State) (v : Byte) : (s.push v).pulled = v := by
  rw [State.pulled, State.push_read, State.push_sp, BitVec.sub_add_cancel, if_pos rfl]

/-- Settles O24, part by part. -/
theorem stackPrimitivesStayInPageOne : Obligations.StackPrimitivesStayInPageOne := by
  unfold Obligations.StackPrimitivesStayInPageOne
  intro s v
  have hread : (s.push v).read (stackAddr s.sp) = v := by rw [State.push_read, if_pos rfl]
  exact ⟨stackAddr_toNat s.sp, hread, s.push_sameMem v, s.push_sp_toNat v, rfl, s.popped_sp_toNat, s.popped_mem,
    s.push_pulled v, s.push_popped_sp v⟩

/-! ### PHA, PLA, PHP, PLP (R167 to R170) -/

theorem mem_allFlags (f : StatusFlag) : f ∈ allFlags := by cases f <;> decide

@[simp] theorem implied_pastOneByte_iff (n : Nat) (work : State → State) (s : State) :
    PastOneByte s (implied n work s) ↔ (work (s.setPc (s.pcAfter 1))).pc = s.pcAfter 1 := Iff.rfl

@[simp] theorem State.setPc_pulled (s : State) (w : Word) : (s.setPc w).pulled = s.pulled := rfl

@[simp] theorem State.setRegZN_a (s : State) (r : Reg) (v : Byte) :
    (s.setRegZN r v).a = if r = .A then v else s.a := by
  simp [State.setRegZN]

@[simp] theorem State.setRegZN_sp (s : State) (r : Reg) (v : Byte) :
    (s.setRegZN r v).sp = if r = .SP then v else s.sp := by
  simp [State.setRegZN]

/-- Settles O25: PHA pushes A, PLA replaces A by the pulled byte with Zero and Negative (D14, log 12). -/
theorem accumulatorGoesToAndFromTheStack : Obligations.AccumulatorGoesToAndFromTheStack := by
  unfold Obligations.AccumulatorGoesToAndFromTheStack
  refine ⟨?pha, ?pla⟩ <;>
    refine impliedForm_of_implied rfl rfl (fun _ => rfl) (by simp [writesReg]) (by simp [writesFlag])
      (fun _ => rfl) fun s => ?_
  case pha => simp
  case pla =>
    have ha : (implied 4 (fun t => t.popped.setRegZN .A t.pulled) s).a = s.pulled := by simp
    refine ⟨ha, by simp, ?zn, by simp⟩
    rw [ha, implied_znFrom_iff, State.setPc_pulled]
    exact State.setRegZN_znFrom _ .A _

/-- Settles O26: PHP clears live Break after its push (D10, log 8), PLP replaces the whole status. -/
theorem statusGoesToAndFromTheStack : Obligations.StatusGoesToAndFromTheStack := by
  unfold Obligations.StatusGoesToAndFromTheStack
  refine ⟨?php, ?plp⟩ <;>
    refine impliedForm_of_implied rfl rfl (fun _ => rfl) (by simp [writesReg]) (by simp [writesFlag, mem_allFlags])
      (fun _ => rfl) fun s => ?_
  case php => simp [pushedCopy, Config.phpClearsB]
  case plp => simp [plpStatus, State.pulled]

end Sys2Proof.Machine
end

section
/-! PROOFS. Branches, jumps, call and return (47_branch_jump.md R175 to R186): the arithmetic of a branch's target and
cost, then each instruction by where it goes, and the call and its return by the word they leave on the stack. -/

namespace Sys2Proof.Machine

open Sys2Proof Sys2Proof.Claims

/-! ### Branches (R175 to R183) -/

/-- The target of a taken branch in exact arithmetic (R92, R175). -/
theorem branchTarget_toNat (d : Byte) (s : State) :
    ((branchTarget d s).toNat : Int) = ((s.pc.toNat : Int) + 2 + d.toInt) % 65536 := by
  have hnext : ((s.pcAfter 2).toNat : Int) = (s.pc.toNat + 2) % 65536 := by simp [State.pcAfter, BitVec.toNat_add]
  rw [branchTarget, sext16, BitVec.signExtend, BitVec.toNat_add, BitVec.toNat_ofInt]
  omega

/-- The branch extra compares high bytes, and the high byte is the page (R175). -/
theorem takenExtra_eq_ite (d : Byte) (s : State) :
    takenExtra d s = if (branchTarget d s).toNat / 256 = (s.pc + 2).toNat / 256 then 1 else 2 := by
  have hnext : s.pcAfter 2 = s.pc + 2 := rfl
  simp only [takenExtra, hnext, ← hi8_toNat, BitVec.toNat_inj, bne_iff_ne, ne_eq, ite_not]

theorem branch_not_taken (d : Byte) (s : State) :
    (branch false d s).pc = s.pc + 2 ∧ (branch false d s).countdown = 2 := ⟨rfl, rfl⟩

theorem branch_taken_countdown (d : Byte) (s : State) :
    (branch true d s).countdown = if (branch true d s).pc.toNat / 256 = (s.pc + 2).toNat / 256 then 3 else 4 := by
  have hcost : (branch true d s).countdown = 2 + takenExtra d s := rfl
  have hpc : (branch true d s).pc = branchTarget d s := rfl
  rw [hcost, hpc, takenExtra_eq_ite]
  split <;> rfl

/-- What is left to show of a branch: that it runs as `branch` of its condition. -/
theorem branchForm_of_branch {mk : Byte → Instr} {op : Byte} {taken : State → Bool}
    (hop : ∀ d, opcodeOf (mk d) = some op) (hbytes : ∀ d, (mk d).operandBytes = [d])
    (hexec : ∀ d s, exec (mk d) s = .next (branch (taken s) d s)) (hregs : ∀ d r, writesReg r (mk d) = false)
    (hflags : ∀ d f, writesFlag f (mk d) = false) (hstored : ∀ d s, writtenAddresses (mk d) s = []) :
    BranchForm mk op taken := by
  refine ⟨fun d rest => ?decodes, fun d => ?wf, fun d s => ⟨_, hexec d s, ?frame, fun h => ?goesOn, fun h => ?goesTo⟩⟩
  case decodes =>
    have hdec := decode_of_opcodeOf (hop d) rest
    rwa [hbytes] at hdec
  case wf => rw [← opcodeOf_isSome, hop, Option.isSome_some]
  case frame =>
    rw [← hstored d s]
    exact exec_frame (hexec d s) (by simp [hregs]) (by simp [hflags])
  case goesOn =>
    rw [h]
    exact branch_not_taken d s
  case goesTo =>
    rw [h]
    exact ⟨branchTarget_toNat d s, branch_taken_countdown d s⟩

/-- Settles O27: each of the eight runs as `branch` of its own condition. -/
theorem branchesFollowTheirFlag : Obligations.BranchesFollowTheirFlag := by
  unfold Obligations.BranchesFollowTheirFlag
  refine ⟨?bcc, ?bcs, ?beq, ?bne, ?bmi, ?bpl, ?bvc, ?bvs⟩ <;>
    exact branchForm_of_branch (fun _ => rfl) (fun _ => rfl) (fun _ _ => rfl) (fun _ _ => rfl) (fun _ _ => rfl)
      fun _ _ => rfl

/-! ### JMP (R184) -/

/-- JMP in any mode goes to the resolved address and changes nothing else. -/
theorem execJmp_runs (o : Operand) (s : State) :
    ∃ t, exec (.jmp o) s = .next t ∧ t.pc = (resolve o s).addr ∧ Frame [] [] [] s t ∧ t.countdown = jumpCycles o :=
  ⟨_, rfl, rfl, exec_frame (i := .jmp o) rfl (by simp [writesReg]) (by simp [writesFlag]), by simp [formCost]⟩

/-- Only a pointer to the last byte of a page does not take its high byte from the next address (R89). -/
theorem indirectHigh_eq_ite (ptr : Word) :
    indirectHigh ptr = if ptr.toNat % 256 = 255 then BitVec.ofNat 16 (ptr.toNat - 255) else ptr + 1 := by
  rw [indirectHigh_eq_ofNat]
  split
  next hwrap =>
    exact congrArg (BitVec.ofNat 16) (by omega)
  next hinside =>
    have hsum : 256 * (ptr.toNat / 256) + (ptr.toNat + 1) % 256 = ptr.toNat + 1 := by omega
    rw [hsum]
    bv_omega

/-- Settles O28: `execJmp_runs` in the two modes of JMP, the word at the pointer by `indirectHigh_eq_ite`. -/
theorem jmpGoesToTheResolvedAddress : Obligations.JmpGoesToTheResolvedAddress := by
  unfold Obligations.JmpGoesToTheResolvedAddress
  refine ⟨?encoded, fun w s => execJmp_runs (.abs w) s, fun ptr s => ?indirect⟩
  case encoded => exact encodedAs_of_opcodeOf (fun _ => rfl) (by decide) fun _ => rfl
  case indirect =>
    obtain ⟨t, ht, hpc, hframe, hcost⟩ := execJmp_runs (.ind ptr) s
    refine ⟨t, ht, ?_, hframe, hcost⟩
    rw [hpc, ← indirectHigh_eq_ite, Nat.mul_comm]
    exact joinBytes_toNat _ _

/-! ### JSR and RTS (R185, R186) -/

/-- Settles O29: the stored values of R53 are the two halves of the pushed address. -/
theorem jsrPushesItsLastByteAddress : Obligations.JsrPushesItsLastByteAddress := by
  unfold Obligations.JsrPushesItsLastByteAddress
  refine ⟨fun lo hi rest => ?decodes, fun w s => ?runs⟩
  case decodes =>
    have hdec := decode_of_opcodeOf (i := .jsr (joinBytes hi lo)) (b := 0x20) rfl rest
    simpa [Instr.operandBytes] using hdec
  case runs =>
    obtain ⟨t, ht⟩ : ∃ t, exec (.jsr w) s = .next t := ⟨_, rfl⟩
    have hstores := exec_stores ht
    simp only [writtenAddresses, storedValues, List.zip_cons_cons, List.forall_mem_cons] at hstores
    obtain ⟨hhi, hlo, -⟩ := hstores
    have hframe := exec_frame (regs := [.SP]) (flags := []) ht (by simp [writesReg]) (by simp [writesFlag])
    cases ht
    exact ⟨_, rfl, rfl, by simp [BitVec.sub_sub], hhi, hlo, hframe, rfl⟩

/-- The word that two pulls return, by the bytes above the stack pointer. -/
theorem State.pulledWord_toNat (s : State) :
    s.pulledWord.toNat = 256 * (s.read (stackAddr (s.sp + 2))).toNat + (s.read (stackAddr (s.sp + 1))).toNat := by
  simp [State.pulledWord, State.pulled, joinBytes_toNat, BitVec.add_assoc, Nat.mul_comm]

/-- Settles O30: RTS goes to the pulled word plus one. -/
theorem rtsPullsAndAddsOne : Obligations.RtsPullsAndAddsOne := by
  unfold Obligations.RtsPullsAndAddsOne
  refine impliedForm_of_implied rfl rfl (fun _ => rfl) (by simp [writesReg]) (by simp [writesFlag])
    (fun _ => rfl) fun s => ⟨?pc, ?sp⟩
  case pc =>
    rw [← s.pulledWord_toNat]
    exact BitVec.toNat_add s.pulledWord 1
  case sp => simp [BitVec.add_assoc]

/-! ### RTS after JSR -/

theorem Frame.trans {regs : List Reg} {flags : List StatusFlag} {stored stored' : List Word} {s t u : State}
    (h : Frame regs flags stored s t) (h' : Frame regs flags stored' t u) :
    Frame regs flags (stored ++ stored') s u := by
  obtain ⟨hreg, hflag, hmem, hinputs⟩ := h
  obtain ⟨hreg', hflag', hmem', hinputs'⟩ := h'
  refine ⟨fun r hr => (hreg' r hr).trans (hreg r hr), fun f hf => (hflag' f hf).trans (hflag f hf), fun a ha => ?_,
    hinputs'.trans hinputs⟩
  obtain ⟨ha, ha'⟩ := not_or.mp (mt List.mem_append.mpr ha)
  exact (hmem' a ha').trans (hmem a ha)

/-- A frame whose only register is `SP` has none once `SP` is restored. -/
theorem Frame.of_sp_eq {flags : List StatusFlag} {stored : List Word} {s t : State}
    (h : Frame [.SP] flags stored s t) (hsp : t.sp = s.sp) : Frame [] flags stored s t := by
  obtain ⟨hregs, hrest⟩ := h
  refine ⟨fun r _ => ?_, hrest⟩
  by_cases hr : r = .SP
  · rw [hr]
    exact hsp
  · exact hregs r (by simpa using hr)

/-- Settles O31: RTS pulls the word that JSR pushed (R185, R186). -/
theorem rtsUndoesJsr : Obligations.RtsUndoesJsr := by
  unfold Obligations.RtsUndoesJsr
  intro w s
  obtain ⟨-, hjsr⟩ := jsrPushesItsLastByteAddress
  obtain ⟨-, -, hrts⟩ := rtsPullsAndAddsOne
  obtain ⟨t, ht, -, htsp, hhi, hlo, htframe, -⟩ := hjsr w s
  obtain ⟨u, hu, ⟨hupc, husp⟩, huframe, -⟩ := hrts t
  have hsp2 : t.sp + 2 = s.sp := by rw [htsp, BitVec.sub_add_cancel]
  have hsp1 : t.sp + 1 = s.sp - 1 := by bv_omega
  refine ⟨t, u, ht, hu, ?pc, (htframe.trans huframe).of_sp_eq (husp.trans hsp2)⟩
  case pc =>
    rw [hsp2, hsp1, hhi, hlo, hi8_toNat, lo8_toNat] at hupc
    bv_omega

end Sys2Proof.Machine
end

section
/-! PROOFS. Software break, return from interrupt, flag operations and no-ops (48_break_flags_nop.md R195 to R206): the
vectors lie outside the stack page, so an entry reads them as they stood before its pushes; then each instruction. -/

namespace Sys2Proof.Machine

open Sys2Proof Sys2Proof.Claims

/-! ### The vector of an entry (R195, R234, R240) -/

theorem ne_stackAddr_of_le {a : Word} (ha : 512 ≤ a.toNat) (p : Byte) : a ≠ stackAddr p := by
  rintro rfl
  have hp : p.toNat < 256 := p.isLt
  rw [stackAddr_toNat] at ha
  omega

theorem not_mem_frameBytes_of_le {a : Word} (ha : 512 ≤ a.toNat) (s : State) : a ∉ frameBytes s := by
  simp [frameBytes, ne_stackAddr_of_le ha]

/-- Both bytes of the word at a vector of an entry lie above the stack page (R12, R47). -/
theorem entryVector_above_stack {vec : Word} (hvec : vec ∈ [Config.vecNmi, Config.vecIrq]) :
    512 ≤ vec.toNat ∧ 512 ≤ (vec + 1).toNat := by
  rcases List.mem_pair.mp hvec with rfl | rfl <;> decide

theorem vectorWord_eq_of_sameMem {s t u : State} {vec : Word} (h : SameMem (frameBytes u) s t)
    (hvec : vec ∈ [Config.vecNmi, Config.vecIrq]) : vectorWord t vec = vectorWord s vec := by
  obtain ⟨hlow, hhigh⟩ := entryVector_above_stack hvec
  rw [vectorWord, vectorWord, h _ (not_mem_frameBytes_of_le hlow u), h _ (not_mem_frameBytes_of_le hhigh u)]

theorem State.enterHandler_sameMem (s : State) (ret : Word) (status : Byte) (vec : Word) :
    SameMem (frameBytes s) s (s.enterHandler ret status vec) := by
  intro a ha
  simp only [frameBytes, List.mem_cons, List.not_mem_nil, or_false, not_or] at ha
  obtain ⟨hhi, hlo, hstatus⟩ := ha
  have htwo : s.sp - 1 - 1 = s.sp - 2 := BitVec.sub_sub _ _ _
  rw [State.enterHandler_read, htwo, if_neg hstatus, if_neg hlo, if_neg hhi]

/-- The three pushes of an entry do not reach its vector. -/
theorem State.enterHandler_pc_eq_vectorWord (s : State) (ret : Word) (status : Byte) {vec : Word}
    (hvec : vec ∈ [Config.vecNmi, Config.vecIrq]) : (s.enterHandler ret status vec).pc = vectorWord s vec := by
  rw [State.enterHandler_pc]
  exact vectorWord_eq_of_sameMem (s.enterHandler_sameMem ret status vec) hvec

theorem vectorWord_vecIrq (s : State) : vectorWord s Config.vecIrq = joinBytes (s.read 0xFFFF) (s.read 0xFFFE) := rfl

/-! ### BRK and RTI (R195, R196) -/

/-- Settles O32: the stored values of R53 are the frame, and the vector is read past it. -/
theorem brkEntersTheHandler : Obligations.BrkEntersTheHandler := by
  unfold Obligations.BrkEntersTheHandler
  refine impliedForm_of_implied rfl rfl (fun _ => rfl) (by simp [writesReg]) (by simp [writesFlag])
    (fun _ => rfl) fun s => ?_
  have hstores := exec_stores (i := .brk) (s := s) rfl
  simp only [writtenAddresses, storedValues, frameBytes, List.zip_cons_cons, List.forall_mem_cons] at hstores
  obtain ⟨hhi, hlo, hstatus, -⟩ := hstores
  refine ⟨hhi, hlo, hstatus, by simp [BitVec.sub_sub], by simp, ?pc⟩
  case pc =>
    rw [← vectorWord_vecIrq, implied_pc, State.enterHandler_pc_eq_vectorWord _ _ _ (by decide)]
    simp [vectorWord]

/-- Settles O33: the status byte is pulled first and the return address behind it. -/
theorem rtiRestoresStatusAndPc : Obligations.RtiRestoresStatusAndPc := by
  unfold Obligations.RtiRestoresStatusAndPc
  refine impliedForm_of_implied rfl rfl (fun _ => rfl) (by simp [writesReg]) (by simp [writesFlag, mem_allFlags])
    (fun _ => rfl) fun s => ⟨fun f => ?flag, ?pc, by simp [BitVec.add_assoc]⟩
  case flag =>
    rw [execRti_flag (s := s) rfl f]
    simp only [or_comm]
  case pc => simp [State.leaveHandler_pc, BitVec.add_assoc]

/-! ### Flag instructions (R197 to R203) -/

/-- A one-byte instruction that runs as the write of one flag writes nothing else. -/
theorem flagForm_of_setFlag {i : Instr} {op : Byte} {base : Nat} {f : StatusFlag} {b : Bool}
    (hexec : ∀ s, exec i s = .next (implied base (fun t => t.setFlag f b) s)) (hop : opcodeOf i = some op)
    (hbytes : i.operandBytes = []) (hregs : ∀ r, writesReg r i = false)
    (hflags : ∀ g, writesFlag g i = true → g ∈ [f]) (hstored : ∀ s, writtenAddresses i s = []) :
    FlagForm i op base f b :=
  impliedForm_of_implied hop hbytes hexec (by simp [hregs]) hflags hstored fun s => by simp [State.pcAfter]

/-- Settles O34: each of the seven runs as the write of its own flag. -/
theorem flagInstructionsWriteOneFlag : Obligations.FlagInstructionsWriteOneFlag := by
  unfold Obligations.FlagInstructionsWriteOneFlag
  refine ⟨?clc, ?sec, ?cli, ?sei, ?cld, ?sed, ?clv⟩ <;>
    exact flagForm_of_setFlag (fun _ => rfl) rfl rfl (fun _ => rfl) (by simp [writesFlag]) fun _ => rfl

/-! ### No-ops (R204 to R206) -/

/-- A one-byte instruction that does no work only advances `pc`. -/
theorem noOpForm_of_implied {i : Instr} {op : Byte} {base : Nat}
    (hexec : ∀ s, exec i s = .next (implied base (fun t => t) s)) (hop : opcodeOf i = some op)
    (hbytes : i.operandBytes = []) (hregs : ∀ r, writesReg r i = false) (hflags : ∀ f, writesFlag f i = false)
    (hstored : ∀ s, writtenAddresses i s = []) : ImpliedForm i op base [] [] (fun _ => []) PastOneByte :=
  impliedForm_of_implied hop hbytes hexec (by simp [hregs]) (by simp [hflags]) hstored fun _ => rfl

theorem undocImp_eq_oneByteNoOps : Config.undocImp = oneByteNoOps := rfl

/-- The base of the three-byte no-ops, and one more when the index crosses a page (R88, R206). -/
theorem formCost_abx_eq_ite (w : Word) (s : State) :
    formCost 4 true (.abx w) s = if (w.toNat + s.x.toNat) % 65536 / 256 = w.toNat / 256 then 4 else 5 := by
  have hcrossed : (resolve (.abx w) s).ax = true ↔ (w.toNat + s.x.toNat) % 65536 / 256 ≠ w.toNat / 256 := by
    rw [← indexed_addr_toNat]
    exact indexed_ax_iff w s.x
  simp only [formCost, Bool.and_true, hcrossed, ne_eq, ite_not]
  split <;> rfl

theorem execUndAbx_runs (op : Byte) (w : Word) (s : State) :
    ∃ t, exec (.undAbx op w) s = .next t ∧ Frame [] [] [] s t ∧ t.pc = s.pc + 3 ∧
      t.countdown = if (w.toNat + s.x.toNat) % 65536 / 256 = w.toNat / 256 then 4 else 5 :=
  ⟨_, rfl, exec_frame (i := .undAbx op w) rfl (by simp [writesReg]) (by simp [writesFlag]), rfl,
    formCost_abx_eq_ite w s⟩

theorem decode_undAbx {op : Byte} (hop : op ∈ Config.undocAbx) (lo hi : Byte) (rest : List Byte) :
    decode (op :: lo :: hi :: rest) = .ok (.undAbx op (joinBytes hi lo), rest) := by
  have hdec := decode_of_opcodeOf (i := .undAbx op (joinBytes hi lo)) (b := op) (by simp [opcodeOf, hop]) rest
  simpa [Instr.operandBytes] using hdec

/-- Settles O35: NOP and the bytes of R68 do no work, and those of R67 only resolve their address. -/
theorem noOperationsOnlyAdvance : Obligations.NoOperationsOnlyAdvance := by
  unfold Obligations.NoOperationsOnlyAdvance
  refine ⟨?nop, undocImp_eq_oneByteNoOps, rfl, fun op hop => ?undImp,
    fun op hop => ⟨decode_undAbx hop, execUndAbx_runs op⟩⟩
  case nop => exact noOpForm_of_implied (fun _ => rfl) rfl rfl (fun _ => rfl) (fun _ => rfl) fun _ => rfl
  case undImp =>
    rw [← undocImp_eq_oneByteNoOps] at hop
    exact noOpForm_of_implied (fun _ => rfl) (by simp [opcodeOf, hop]) rfl (fun _ => rfl) (fun _ => rfl) fun _ => rfl

end Sys2Proof.Machine
end

section
/-! PROOFS. Dispatch, Clock and the step (49_dispatch_clock.md R215 to R220, 60_exceptions.md R230, R231), Reset and the
first instruction after it (70_reset_and_hazards.md R260 to R262). -/

namespace Sys2Proof.Machine

open Sys2Proof Sys2Proof.Claims

/-! ### Costs and dispatch (R216, R217) -/

/-- Settles O36: every instruction completes, at the cost that `exec_cost` bounds. -/
theorem costLiesBetweenTwoAndSeven : Obligations.CostLiesBetweenTwoAndSeven := by
  unfold Obligations.CostLiesBetweenTwoAndSeven
  intro i s _
  obtain ⟨t, ht, -⟩ := exec_updates i s
  exact ⟨t, ht, exec_cost ht⟩

/-- The instruction at `pc` completes, at a cost of at least 2. -/
theorem exists_dispatch_next (s : State) : ∃ t, dispatch s = .next t ∧ 2 ≤ t.countdown := by
  obtain ⟨t, ht, -⟩ := exec_updates s.instrAt s.latchOpcode
  exact ⟨t, ht, (exec_cost ht).1⟩

/-! ### Clock (R215) -/

theorem clockCommand_of_countdown_succ {s : State} {k : Nat} (h : s.countdown = k + 1) :
    clockCommand s = .next (s.charge k) := by
  rw [clockCommand_busy (by omega), State.tickEnd, h, Nat.add_sub_cancel]

/-- Settles O42: a running countdown is lowered, at zero the instruction at `pc` completes. -/
theorem clockDispatchesOrCountsDown : Obligations.ClockDispatchesOrCountsDown := by
  unfold Obligations.ClockDispatchesOrCountsDown
  refine fun s => ⟨fun _ => clockCommand_of_countdown_succ, fun hidle => ?_⟩
  obtain ⟨t, ht, hcost⟩ := exists_dispatch_next s
  exact ⟨t, ht, hcost, clockCommand_idle hidle ht⟩

theorem exists_clockCommand_next (s : State) : ∃ t, clockCommand s = .next t := by
  by_cases hc : s.countdown = 0
  · obtain ⟨t, ht, -⟩ := exists_dispatch_next s
    exact ⟨_, clockCommand_idle hc ht⟩
  · exact ⟨_, clockCommand_busy hc⟩

/-! ### The step (R230, R231) -/

theorem exists_perform_next (e : Input) (s : State) : ∃ t, perform e s = .next t := by
  match e with
  | .command .clock => exact exists_clockCommand_next s
  | .command .reset | .command .irq | .command .nmi | .hostWrite _ _ => exact ⟨_, rfl⟩

/-- Settles O43: every input, and the Clock of an empty list, answers a next state. -/
theorem machineNeverStops : Obligations.MachineNeverStops := by
  unfold Obligations.MachineNeverStops
  intro s
  match hi : s.inputs with
  | [] =>
    obtain ⟨t, ht⟩ := exists_clockCommand_next s
    exact ⟨t, by rw [step_of_no_input hi, ht]⟩
  | e :: rest =>
    obtain ⟨t, ht⟩ := exists_perform_next e (s.setInputs rest)
    exact ⟨t, by rw [step_of_input hi, ht]⟩

/-- Settles O41: `step_of_input` at each kind of input. -/
theorem stepPerformsTheNextInput : Obligations.StepPerformsTheNextInput := by
  unfold Obligations.StepPerformsTheNextInput
  intro s rest addr v
  refine ⟨step_of_no_input, step_of_input, step_of_input, step_of_input, step_of_input, fun hi => ?hostWrite⟩
  refine ⟨(s.setInputs rest).write addr v, step_of_input hi, by simp, fun a ha => ?others, rfl⟩
  rw [State.write_read, if_neg (List.ne_of_not_mem_cons ha), State.setInputs_read]

/-- Three bytes are enough for every opcode byte, so `decode` answers what the dispatch takes from them (R94). -/
theorem State.instrAt_of_decode {s : State} {i : Instr} {tail : List Byte}
    (h : decode [s.read s.pc, s.read (s.pc + 1), s.read (s.pc + 2)] = .ok (i, tail)) : s.instrAt = i := by
  have hlen : opcodeLength (s.read s.pc) ≤ 3 := (opcodeLength_bounds _).2
  rw [decode_cons_of_le (by simpa using hlen)] at h
  cases h
  rfl

/-- A Clock, listed first or not at all, is performed on the state without it. -/
theorem step_of_clock_next {s : State} {rest : List Input}
    (h : s.inputs = [] ∧ rest = [] ∨ s.inputs = .command .clock :: rest) :
    step s = clockCommand (s.setInputs rest) := by
  rcases h with ⟨hi, rfl⟩ | hi
  · have hsame : s.setInputs [] = s := by rw [← hi]; rfl
    rw [hsame, step_of_no_input hi]
  · exact step_of_input hi

/-- Settles O40: the dispatch of the Clock runs what `decode` answers at `pc`. -/
theorem stepRunsTheDecodedInstruction : Obligations.StepRunsTheDecodedInstruction := by
  unfold Obligations.StepRunsTheDecodedInstruction
  intro s t i tail rest hidle hclock hdec hexec
  obtain rfl := State.instrAt_of_decode hdec
  have hdispatch : dispatch (s.setInputs rest) = .next t := hexec
  exact ⟨decodeBytes_wf _ _ _, by rw [step_of_clock_next hclock]; exact clockCommand_idle hidle hdispatch⟩

/-! ### Several Clocks, and the Step framing (R219, R220) -/

theorem clocks_succ_of_next {s t : State} (h : clockCommand s = .next t) (n : Nat) :
    clocks (n + 1) s = clocks n t := by
  simp [clocks, h]

/-- As many Clocks as the countdown holds, or fewer, only lower it. -/
theorem clocks_of_le_countdown {k : Nat} {s : State} (hk : k ≤ s.countdown) :
    clocks k s = .next (s.charge (s.countdown - k)) := by
  induction k generalizing s with
  | zero => rfl
  | succ k ih =>
    obtain ⟨c, hc⟩ : ∃ c, s.countdown = c + 1 := ⟨s.countdown - 1, by omega⟩
    have hrest := ih (s := s.charge c) (by simp; omega)
    rw [clocks_succ_of_next (clockCommand_of_countdown_succ hc), hrest, hc, Nat.add_sub_add_right]
    rfl

/-- From an idle state the first Clock dispatches and the others count the cost down. -/
theorem clocks_succ_of_dispatch {s t : State} {k : Nat} (hidle : s.countdown = 0) (ht : dispatch s = .next t)
    (hk : k + 1 ≤ t.countdown) : clocks (k + 1) s = .next (t.charge (t.countdown - (k + 1))) := by
  have hrest := clocks_of_le_countdown (k := k) (s := t.tickEnd) (by simp; omega)
  rw [clocks_succ_of_next (clockCommand_idle hidle ht), hrest, State.tickEnd_countdown, Nat.sub_sub, Nat.add_comm 1 k]
  rfl

theorem stepWhole_of_dispatch {s t : State} (h : dispatch s = .next t) :
    stepWhole s = (.next (t.charge 0), t.countdown) := by
  simp [stepWhole, h]

/-- Settles O46: the Step framing dispatches like the first Clock, and the Clocks after it count the cost down. -/
theorem stepFramingAgreesWithClocks : Obligations.StepFramingAgreesWithClocks := by
  unfold Obligations.StepFramingAgreesWithClocks
  refine ⟨fun s hidle => ?idle, fun s => ?busy⟩
  case busy =>
    rw [clocks_of_le_countdown le_rfl, Nat.sub_self]
    rfl
  case idle =>
    obtain ⟨t, ht, hcost⟩ := exists_dispatch_next s
    have hclocks {k : Nat} (hpos : 0 < k) (hk : k ≤ t.countdown) :
        clocks k s = .next (t.charge (t.countdown - k)) := by
      obtain ⟨j, rfl⟩ : ∃ j, k = j + 1 := ⟨k - 1, by omega⟩
      exact clocks_succ_of_dispatch hidle ht hk
    refine ⟨t.charge 0, t.countdown, stepWhole_of_dispatch ht, rfl, ?last, fun k hpos hk => hclocks hpos hk.le⟩
    case last => rw [hclocks (by omega) le_rfl, Nat.sub_self]

/-! ### Reset (R260 to R262) -/

/-- Settles O48: the fields of the command, one by one. -/
theorem resetCommandReinitialises : Obligations.ResetCommandReinitialises := by
  unfold Obligations.ResetCommandReinitialises
  exact fun _ => rfl

theorem clocks_add_of_next {m : Nat} {s t : State} (h : clocks m s = .next t) (n : Nat) :
    clocks (m + n) s = clocks n t := by
  induction m generalizing s with
  | zero => cases h; rw [Nat.zero_add]
  | succ m ih =>
    obtain ⟨u, hu⟩ := exists_clockCommand_next s
    rw [clocks_succ_of_next hu] at h
    rw [Nat.succ_add_eq_add_succ, Nat.add_succ, clocks_succ_of_next hu, ih h]

/-- Settles O49: Reset leaves a countdown of 8, and the Clock after it is spent dispatches at the vector's word. -/
theorem ninthClockAfterResetDispatches : Obligations.NinthClockAfterResetDispatches := by
  unfold Obligations.NinthClockAfterResetDispatches
  intro s
  have hcount (k : Nat) (hk : k ≤ 8) : clocks k (resetCommand s) = .next ((resetCommand s).charge (8 - k)) :=
    clocks_of_le_countdown hk
  refine ⟨hcount, ?_⟩
  obtain ⟨t, ht, -⟩ := exists_dispatch_next ((resetCommand s).charge 0)
  refine ⟨t, ht, ?_⟩
  rw [clocks_add_of_next (hcount 8 le_rfl) 1, clocks_succ_of_next (clockCommand_idle rfl ht)]
  rfl

end Sys2Proof.Machine
end

section
/-! PROOFS. IRQ and NMI (60_exceptions.md R232 to R241): what an interrupt entry leaves, the two orders of two entries,
the return by RTI from the frame of any entry, and the mask right after the instructions that write it. -/

namespace Sys2Proof.Machine

open Sys2Proof Sys2Proof.Claims

/-! ### One entry (R232 to R234) -/

theorem State.interruptEntry_sameMem (s : State) (vec : Word) (cost : Nat) :
    SameMem (frameBytes s) s (s.interruptEntry vec cost) :=
  (s.setStatus (interruptStatus s.p)).enterHandler_sameMem s.pc (interruptStatus s.p) vec

theorem State.interruptEntry_frame (s : State) (vec : Word) (cost : Nat) :
    Frame [.SP] [.B, .U, .I] (frameBytes s) s (s.interruptEntry vec cost) := by
  refine ⟨fun r hr => ?regs, fun f hf => ?flags, s.interruptEntry_sameMem vec cost, by simp⟩
  case regs => rw [State.interruptEntry_reg, if_neg (by simpa using hr)]
  case flags =>
    obtain ⟨hB, hU, hI⟩ : f ≠ .B ∧ f ≠ .U ∧ f ≠ .I := by simpa using hf
    rw [State.interruptEntry_flag, if_neg hI, if_neg hU, if_neg hB]

theorem State.interruptEntry_entersInterrupt (s : State) {vec : Word} (hvec : vec ∈ [Config.vecNmi, Config.vecIrq])
    (cost : Nat) : EntersInterrupt vec cost s (s.interruptEntry vec cost) := by
  have hlo : s.sp ≠ s.sp - 1#8 := by bv_omega
  have hstatus : s.sp ≠ s.sp - 2#8 := by bv_omega
  refine ⟨?hi8, ?lo8, fun f => ?status, by simp, by simp, by simp, by simp [BitVec.sub_sub], ?pc, rfl,
    s.interruptEntry_frame vec cost⟩
  case hi8 => simp [BitVec.sub_sub, hlo, hstatus]
  case lo8 => simp [BitVec.sub_sub]
  case status => simp [BitVec.sub_sub, State.flag]
  case pc =>
    rw [State.interruptEntry_pc]
    exact vectorWord_eq_of_sameMem (s.interruptEntry_sameMem vec cost) hvec

theorem irqCommand_of_masked {s : State} (h : s.flag .I = true) : irqCommand s = s := by
  rw [irqCommand, if_pos h]

theorem irqCommand_of_unmasked {s : State} (h : s.flag .I = false) :
    irqCommand s = s.interruptEntry Config.vecIrq 7 := by
  rw [irqCommand, if_neg (by simp [h])]

theorem irqCommand_entersInterrupt {s : State} (h : s.flag .I = false) :
    EntersInterrupt 0xFFFE 7 s (irqCommand s) := by
  rw [irqCommand_of_unmasked h]
  exact s.interruptEntry_entersInterrupt (by decide) 7

theorem nmiCommand_entersInterrupt (s : State) : EntersInterrupt 0xFFFA 8 s (nmiCommand s) :=
  s.interruptEntry_entersInterrupt (by decide) 8

/-- Settles O50: the entry is taken exactly when the mask is clear. -/
theorem irqEntersUnlessMasked : Obligations.IrqEntersUnlessMasked := by
  unfold Obligations.IrqEntersUnlessMasked
  exact fun s => ⟨irqCommand_of_masked, irqCommand_entersInterrupt⟩

/-- Settles O51: the entry of NMI does not look at the mask. -/
theorem nmiAlwaysEnters : Obligations.NmiAlwaysEnters := by
  unfold Obligations.NmiAlwaysEnters
  exact nmiCommand_entersInterrupt

/-! ### Two entries (R239) -/

/-- The frame of an entry ends where the next one begins. -/
theorem not_mem_frameBytes_below {s t : State} (hsp : t.sp = s.sp - 3) {a : Word} (ha : a ∈ frameBytes s) :
    a ∉ frameBytes t := by
  have hdisjoint : ∀ p ∈ [s.sp, s.sp - 1, s.sp - 2], p ≠ t.sp ∧ p ≠ t.sp - 1 ∧ p ≠ t.sp - 2 := by
    simp only [hsp, List.forall_mem_cons, List.not_mem_nil, false_implies, implies_true, and_true]
    bv_omega
  obtain ⟨p, hp, rfl⟩ : ∃ p ∈ [s.sp, s.sp - 1, s.sp - 2], stackAddr p = a := List.mem_map.mp ha
  simpa [frameBytes] using hdisjoint p hp

/-- Settles O52: the second entry pushes what the first one left, below the first one's frame. -/
theorem interruptsTakeEffectInDriverOrder : Obligations.InterruptsTakeEffectInDriverOrder := by
  unfold Obligations.InterruptsTakeEffectInDriverOrder
  refine fun s => ⟨?nmiFirst, fun hunmasked => ⟨_, rfl, ?irqFirst⟩⟩
  case nmiFirst =>
    obtain ⟨-, -, -, -, -, hI, -⟩ := nmiCommand_entersInterrupt s
    exact irqCommand_of_masked hI
  case irqFirst =>
    obtain ⟨hhi, hlo, -, -, -, hI, hsp, hpc, -, -, -, hmem, -⟩ := irqCommand_entersInterrupt hunmasked
    generalize irqCommand s = t at *
    obtain ⟨hhi', hlo', hstatus', -, -, -, hsp', hpc', hcount', -, -, hmem', -⟩ := nmiCommand_entersInterrupt t
    rw [hsp] at hhi' hlo' hstatus' hsp'
    have htarget : vectorWord t 0xFFFA = vectorWord s 0xFFFA := vectorWord_eq_of_sameMem hmem (by decide)
    have hkeeps (a : Word) (ha : a ∈ frameBytes s) : (nmiCommand t).read a = t.read a :=
      hmem' a (not_mem_frameBytes_below hsp ha)
    have hfour : s.sp - 4 = s.sp - 3 - 1 := by bv_omega
    have hfive : s.sp - 5 = s.sp - 3 - 2 := by bv_omega
    refine ⟨hpc'.trans htarget, hcount', by rw [hsp']; bv_omega, ?address, ?masked, ?interrupted⟩
    case address => rw [hhi', hfour, hlo', joinBytes_hi8_lo8, hpc]
    case masked =>
      rw [hfive, hstatus' .I]
      simp [hI]
    case interrupted =>
      rw [hkeeps _ (by simp [frameBytes]), hkeeps _ (by simp [frameBytes]), hhi, hlo, joinBytes_hi8_lo8]

/-! ### Return from an entry (R241) -/

/-- `t` is entered from `s` by a frame with this return address and the flags of `s` but Break and Unused. -/
structure EnteredFrom (s : State) (ret : Word) (t : State) : Prop where
  high : t.read (stackAddr s.sp) = hi8 ret
  low : t.read (stackAddr (s.sp - 1)) = lo8 ret
  status : ∀ f, f ∉ [StatusFlag.B, .U] → getFlag (t.read (stackAddr (s.sp - 2))) f = s.flag f
  sp : t.sp = s.sp - 3
  frame : Frame [.SP] [.B, .U, .I] (frameBytes s) s t

theorem enteredFrom_of_entersInterrupt {s t : State} {vec : Word} {cost : Nat} (h : EntersInterrupt vec cost s t) :
    EnteredFrom s s.pc t := by
  obtain ⟨hhi, hlo, hstatus, -, -, -, hsp, -, -, hframe⟩ := h
  refine ⟨hhi, hlo, fun f hf => ?_, hsp, hframe⟩
  obtain ⟨hB, hU⟩ : f ≠ .B ∧ f ≠ .U := by simpa using hf
  rw [hstatus, if_neg hU, if_neg hB]

theorem execBrk_enteredFrom (s : State) : ∃ t, exec .brk s = .next t ∧ EnteredFrom s (s.pc + 2) t := by
  obtain ⟨-, -, hbrk⟩ := brkEntersTheHandler
  obtain ⟨t, ht, ⟨hhi, hlo, hstatus, hsp, -, -⟩, ⟨hregs, hflags, hmem, hinputs⟩, -⟩ := hbrk s
  have hkept (f : StatusFlag) (hf : f ∉ [.B, .U, .I]) : t.flag f = s.flag f :=
    hflags f fun hI => hf (by simp [List.mem_singleton.mp hI])
  have hcopy : t.read (stackAddr (s.sp - 2)) = pushedCopy s.p := hstatus
  refine ⟨t, ht, hhi, hlo, fun f hf => ?status, hsp, hregs, hkept, hmem, hinputs⟩
  case status =>
    rw [hcopy, getFlag_pushedCopy, if_neg (by simpa using hf)]
    rfl

/-- RTI pulls the frame of an entry: status first, then the return address. -/
theorem EnteredFrom.rti_resumes {s t : State} {ret : Word} (h : EnteredFrom s ret t) :
    ∃ u, exec .rti t = .next u ∧ u.pc = ret ∧ Frame [] [.B, .U] (frameBytes s) s u := by
  obtain ⟨hhi, hlo, hstatus, hsp, hregs, -, hmem, hinputs⟩ := h
  obtain ⟨-, -, hrti⟩ := rtiRestoresStatusAndPc
  obtain ⟨u, hu, ⟨hflag, hpc, husp⟩, ⟨huregs, -, humem, huinputs⟩, -⟩ := hrti t
  have hone : s.sp - 3 + 1 = s.sp - 2 := by bv_omega
  have htwo : s.sp - 3 + 2 = s.sp - 1 := by bv_omega
  have hthree : s.sp - 3 + 3 = s.sp := by bv_omega
  rw [hsp, htwo, hthree, hhi, hlo, joinBytes_hi8_lo8] at hpc
  have hframe : Frame [.SP] [.B, .U] (frameBytes s) s u := by
    refine ⟨fun r hr => (huregs r hr).trans (hregs r hr), fun f hf => ?flags,
      fun a ha => (humem a List.not_mem_nil).trans (hmem a ha), huinputs.trans hinputs⟩
    case flags => rw [hflag, if_neg (by simpa using hf), hsp, hone, hstatus f hf]
  exact ⟨u, hu, hpc, hframe.of_sp_eq (by rw [husp, hsp, hthree])⟩

/-- Settles O53: the three entries leave a frame that RTI pulls. -/
theorem rtiResumesAfterEveryEntry : Obligations.RtiResumesAfterEveryEntry := by
  unfold Obligations.RtiResumesAfterEveryEntry
  refine fun s => ⟨fun hunmasked => ?irq, ?nmi, ?brk⟩
  case irq => exact (enteredFrom_of_entersInterrupt (irqCommand_entersInterrupt hunmasked)).rti_resumes
  case nmi => exact (enteredFrom_of_entersInterrupt (nmiCommand_entersInterrupt s)).rti_resumes
  case brk =>
    obtain ⟨t, ht, hentered⟩ := execBrk_enteredFrom s
    obtain ⟨u, hu, hresumed⟩ := hentered.rti_resumes
    exact ⟨t, u, ht, hu, hresumed⟩

/-! ### The mask right after an instruction (R235) -/

/-- An entry that is taken moves the stack pointer, so that it always shows. -/
theorem irqCommand_eq_self_iff (s : State) : irqCommand s = s ↔ s.flag .I = true := by
  refine ⟨fun hsame => ?_, irqCommand_of_masked⟩
  by_contra hunmasked
  obtain ⟨-, -, -, -, -, -, hsp, -⟩ := irqCommand_entersInterrupt (Bool.eq_false_of_not_eq_true hunmasked)
  rw [hsame] at hsp
  bv_omega

/-- Settles O54: the flag that the instruction leaves decides the IRQ after it. -/
theorem interruptMaskActsAtOnce : Obligations.InterruptMaskActsAtOnce := by
  unfold Obligations.InterruptMaskActsAtOnce
  obtain ⟨-, -, ⟨-, -, hcli⟩, ⟨-, -, hsei⟩, -⟩ := flagInstructionsWriteOneFlag
  refine fun s => ⟨?sei, ?cli, ?pulled⟩
  case sei =>
    obtain ⟨t, ht, ⟨hI, -⟩, -⟩ := hsei s
    exact ⟨t, ht, irqCommand_of_masked hI⟩
  case cli =>
    obtain ⟨t, ht, ⟨hI, -⟩, ⟨-, -, hmem, -⟩, -⟩ := hcli s
    obtain ⟨-, -, -, -, -, -, -, hpc, hcost, -⟩ := irqCommand_entersInterrupt hI
    exact ⟨t, ht, hcost, by rw [hpc, vectorWord, vectorWord, hmem _ List.not_mem_nil, hmem _ List.not_mem_nil]⟩
  case pulled =>
    intro i hi
    rcases List.mem_pair.mp hi with rfl | rfl
    · exact ⟨_, rfl, by rw [irqCommand_eq_self_iff, execPlp_flag rfl]; simp⟩
    · exact ⟨_, rfl, by rw [irqCommand_eq_self_iff, execRti_flag rfl]; simp⟩

end Sys2Proof.Machine
end

section
/-! PROOFS. The end of a run (70_reset_and_hazards.md R268): an instruction that jumps to itself leaves a state that holds
the same but for the countdown and the scratch fields, at which the same instruction stands again. -/

namespace Sys2Proof.Machine

open Sys2Proof Sys2Proof.Claims

/-! ### States that hold the same -/

namespace Alike

variable {hidden : List StatusFlag} {scratch : Prop} {s t u : State}

theorem refl (s : State) : Alike hidden scratch s s :=
  ⟨fun _ => rfl, fun _ _ => rfl, rfl, rfl, rfl, rfl, fun _ => ⟨rfl, rfl, rfl, rfl⟩⟩

theorem trans (h : Alike hidden scratch s t) (h' : Alike hidden scratch t u) : Alike hidden scratch s u where
  reg r := (h.reg r).trans (h'.reg r)
  flag f hf := (h.flag f hf).trans (h'.flag f hf)
  pc := h.pc.trans h'.pc
  countdown := h.countdown.trans h'.countdown
  mem := h.mem.trans h'.mem
  inputs := h.inputs.trans h'.inputs
  scratchFields hscr :=
    let ⟨hop, habs, hrel, hfet⟩ := h.scratchFields hscr
    let ⟨hop', habs', hrel', hfet'⟩ := h'.scratchFields hscr
    ⟨hop.trans hop', habs.trans habs', hrel.trans hrel', hfet.trans hfet'⟩

theorem branchTaken_eq (h : Alike [] scratch s t) (i : Instr) : branchTaken i s = branchTaken i t := by
  cases i <;> simp [branchTaken, h.flag]

/-- Whether an instruction jumps to itself is no matter of the scratch fields. -/
theorem atSelfJump (h : Alike [] scratch s t) (hs : AtSelfJump s) : AtSelfJump t := by
  rcases hs with hword | ⟨ptr, hptr, haddr⟩ | ⟨hoffset, htaken⟩
  · exact .inl (by rw [← h.instrAt_eq, ← h.pc, hword])
  · exact .inr (.inl ⟨ptr, h.instrAt_eq ▸ hptr, by rw [← h.resolve_eq (.inl (by simp)), haddr, h.pc]⟩)
  · exact .inr (.inr ⟨h.instrAt_eq ▸ hoffset, by rw [← h.instrAt_eq, ← h.branchTaken_eq, htaken]⟩)

end Alike

/-- `t` holds what `s` holds, but for the countdown and the scratch fields. -/
def StaysAt (s t : State) : Prop := Alike [] False (s.charge t.countdown) t

theorem StaysAt.trans {s t u : State} (h : StaysAt s t) (h' : StaysAt t u) : StaysAt s u :=
  Alike.trans (Alike.charge h rfl) h'

theorem StaysAt.atSelfJump {s t : State} (h : StaysAt s t) (hs : AtSelfJump s) : AtSelfJump t :=
  Alike.atSelfJump h hs

theorem staysAt_tickEnd (s : State) : StaysAt s s.tickEnd := Alike.refl _

theorem staysAt_latchOpcode (s : State) : StaysAt s s.latchOpcode :=
  ⟨fun r => by simp, fun _ _ => rfl, rfl, rfl, rfl, rfl, False.elim⟩

/-! ### The three self-jumps -/

theorem execJmp_staysAt {o : Operand} {s : State} (haddr : (resolve o s).addr = s.pc) :
    ∃ t, exec (.jmp o) s = .next t ∧ StaysAt s t :=
  ⟨_, rfl, fun r => by simp, fun _ _ => rfl, haddr.symm, rfl, rfl, rfl, False.elim⟩

/-- Offset 0xFE leads back over the two bytes of the branch (R92). -/
theorem branchTarget_0xFE (s : State) : branchTarget 0xFE s = s.pc := by
  have hback : sext16 0xFE = 0xFFFE := by decide
  rw [branchTarget, State.pcAfter, hback]
  bv_omega

theorem branch_staysAt {d : Byte} {s : State} (htarget : branchTarget d s = s.pc) : StaysAt s (branch true d s) :=
  ⟨fun r => by simp, fun _ _ => rfl, htarget.symm, rfl, rfl, rfl, False.elim⟩

theorem exec_of_branchTaken {i : Instr} {d : Byte} {s : State} (hoffset : branchOffset i = some d)
    (htaken : branchTaken i s = true) : exec i s = .next (branch true d s) := by
  cases i with
  | bcc b | bcs b | beq b | bne b | bmi b | bpl b | bvc b | bvs b =>
    cases hoffset
    rw [← htaken]
    rfl
  | _ => cases hoffset

theorem exec_staysAt_of_atSelfJump {s : State} (h : AtSelfJump s) : ∃ t, exec s.instrAt s = .next t ∧ StaysAt s t := by
  rcases h with hword | ⟨ptr, hptr, haddr⟩ | ⟨hoffset, htaken⟩
  · rw [hword]
    exact execJmp_staysAt rfl
  · rw [hptr]
    exact execJmp_staysAt haddr
  · exact ⟨_, exec_of_branchTaken hoffset htaken, branch_staysAt (branchTarget_0xFE s)⟩

/-! ### Clock after Clock -/

theorem clockCommand_staysAt_of_atSelfJump {s : State} (h : AtSelfJump s) :
    ∃ t, clockCommand s = .next t ∧ StaysAt s t := by
  by_cases hidle : s.countdown = 0
  · have hlatched := staysAt_latchOpcode s
    obtain ⟨t, ht, hstays⟩ := exec_staysAt_of_atSelfJump (hlatched.atSelfJump h)
    exact ⟨_, clockCommand_idle hidle ht, (hlatched.trans hstays).trans (staysAt_tickEnd t)⟩
  · exact ⟨_, clockCommand_busy hidle, staysAt_tickEnd s⟩

theorem clocks_staysAt_of_atSelfJump {s : State} (h : AtSelfJump s) (n : Nat) :
    ∃ t, clocks n s = .next t ∧ StaysAt s t := by
  induction n generalizing s with
  | zero => exact ⟨s, rfl, Alike.refl s⟩
  | succ n ih =>
    obtain ⟨t, ht, hstays⟩ := clockCommand_staysAt_of_atSelfJump h
    obtain ⟨u, hu, hstays'⟩ := ih (hstays.atSelfJump h)
    exact ⟨u, by rw [clocks_succ_of_next ht, hu], hstays.trans hstays'⟩

/-- Settles O59: each Clock stays at the self-jump, whether it dispatches it or counts its cost down. -/
theorem selfJumpChangesNothingForEver : Obligations.SelfJumpChangesNothingForEver := by
  unfold Obligations.SelfJumpChangesNothingForEver
  intro s n _ h
  obtain ⟨t, ht, hstays⟩ := clocks_staysAt_of_atSelfJump h n
  exact ⟨t, ht, hstays.pc.symm, hstays.mem.symm, fun r _ => by simpa using (hstays.reg r).symm,
    fun f hf => (hstays.flag f hf).symm⟩

end Sys2Proof.Machine
end
